-- ==== Sys2Proof/Word.lean ====
section
/-!
DEFINITION. The datapath's types: the 32-bit word and the byte of 00_scope.md R4 and R13, and `Words8`,
eight words, the shape of every buffer of the core (`x`, `y`, `KEY`, `NONCE`, `DIN`, `DOUT`, `TAGIN`).
Only the plainest access functions stand here.  Rotation, byte packing and every other rule a test could
probe stand under `Sys2Proof/Machine/`.
-/

namespace Sys2Proof

/-- A word is 32 bits (00_scope.md R4). -/
abbrev Word := BitVec 32

/-- A byte is 8 bits (00_scope.md R13). -/
abbrev Byte := BitVec 8

/-- Eight words, `w0` the word of index 0: a state array (10_state.md R20) or a 32-byte buffer
(10_state.md R24 to R28). -/
structure Words8 where
  w0 : Word
  w1 : Word
  w2 : Word
  w3 : Word
  w4 : Word
  w5 : Word
  w6 : Word
  w7 : Word
deriving DecidableEq, Repr

namespace Words8

/-- Word `k` for `k` in 0..7.  No rule reads an index above 7; the last line only makes the function total. -/
def get (v : Words8) : Nat → Word
  | 0 => v.w0
  | 1 => v.w1
  | 2 => v.w2
  | 3 => v.w3
  | 4 => v.w4
  | 5 => v.w5
  | 6 => v.w6
  | 7 => v.w7
  | _ => 0

/-- The eight words `f 0, …, f 7`. -/
def ofFn (f : Nat → Word) : Words8 := ⟨f 0, f 1, f 2, f 3, f 4, f 5, f 6, f 7⟩

/-- `v` with word `k` replaced by `a`. -/
def set (v : Words8) (k : Nat) (a : Word) : Words8 := ofFn fun j => if j = k then a else v.get j

/-- Eight zero words. -/
def zero : Words8 := ofFn fun _ => 0

/-- Word by word exclusive OR (00_scope.md R10). -/
def xor (u v : Words8) : Words8 := ofFn fun j => u.get j ^^^ v.get j

end Words8

end Sys2Proof
end

