-- ==== Sys2Proof/Syntax.lean ====
section
/-!
DEFINITION. The command set as syntax: one constructor of `Instr` for each row of spec/opcode_table.json
(30_encoding.md R92, R101), with the fields the row leaves free.
-/

namespace Sys2Proof

/-- The direction of a session: INIT's DIR bit and STATUS.DIR (30_encoding.md R93, 10_state.md R33). -/
inductive Dir where
  /-- DIR = 0. -/
  | encrypt
  /-- DIR = 1. -/
  | decrypt
deriving DecidableEq, Repr

/-- One command (30_encoding.md R92).  `len` is the LEN field (R95), `nb` and `steps` are PERM's NB and
STEPS fields (R94, R96), each held as the bits of the command word. -/
inductive Instr where
  | nop
  | init (dir : Dir)
  | aadBlock
  | aadFinal (len : BitVec 6)
  | encBlock
  | encFinal (len : BitVec 6)
  | decBlock
  | decFinal (len : BitVec 6)
  | finalize
  | verify
  | perm (nb : BitVec 2) (steps : BitVec 8)
  | clear
deriving DecidableEq, Repr

end Sys2Proof
end

