-- ==== Sys2Proof/WellFormed.lean ====
section
/-!
DEFINITION. Which terms of `Instr` are commands the encoding has.  The one check is 30_encoding.md R94 and
R99: PERM with NB = 3 is reserved.  LEN and STEPS are free fields of 30_encoding.md R101: a LEN of 33..63 and
a STEPS of 0 decode, and raise LENGTH and STEPS when they run (R95, R96), so they are well formed.
-/

namespace Sys2Proof

/-- NB selects a size of the permutation (30_encoding.md R94); 3 is reserved (R99). -/
def nbLegal (nb : BitVec 2) : Bool := nb != 3

/-- A term that some command word stands for (30_encoding.md R101). -/
def Instr.wellFormed : Instr → Bool
  | .nop => true
  | .init _ => true
  | .aadBlock => true
  | .aadFinal _ => true
  | .encBlock => true
  | .encFinal _ => true
  | .decBlock => true
  | .decFinal _ => true
  | .finalize => true
  | .verify => true
  | .perm nb _ => nbLegal nb
  | .clear => true

end Sys2Proof
end

