-- ==== Sys2Proof/Decode.lean ====
section
/-!
DEFINITION. The command word's fields, the decoder and the encoder (30_encoding.md R90 to R102), and the
rows of the opcode table as data (R101).
-/

namespace Sys2Proof

/-! ### Fields (30_encoding.md R91) -/

/-- OP, bits [3:0]. -/
def opField (w : Word) : BitVec 4 := w.extractLsb' 0 4

/-- Bit 4: INIT's DIR. -/
def dirField (w : Word) : BitVec 1 := w.extractLsb' 4 1

/-- Bits [5:4]: PERM's NB. -/
def nbField (w : Word) : BitVec 2 := w.extractLsb' 4 2

/-- LEN, bits [13:8]. -/
def lenField (w : Word) : BitVec 6 := w.extractLsb' 8 6

/-- STEPS, bits [23:16]. -/
def stepsField (w : Word) : BitVec 8 := w.extractLsb' 16 8

/-- Bits [7:6], [15:14] and [31:24], reserved in every command (30_encoding.md R97). -/
def reservedMask : Word := 0xFF00C0C0

/-! ### The decoder -/

/-- Why a word is no command.  The core reports each of them as ILLEGAL (30_encoding.md R97 to R99). -/
inductive DecodeReject where
  /-- A reserved bit is set (R97). -/
  | reservedBits
  /-- A field the operation does not use is nonzero (R98). -/
  | unusedField
  /-- OP is 0xC..0xF (R99). -/
  | reservedOp
  /-- PERM with NB = 3 (R99). -/
  | reservedSize
  /-- Fewer than the four bytes of a command word (R90). -/
  | truncated
deriving DecidableEq, Repr

/-- A command whose unused fields are `unused` (30_encoding.md R98). -/
def needZero (unused : Bool) (i : Instr) : Except DecodeReject Instr :=
  if unused then .ok i else .error .unusedField

/-- INIT's direction: DIR = 0 is encrypt and DIR = 1 is decrypt (30_encoding.md R93). -/
def dirOfBit (b : BitVec 1) : Dir := if b = 0 then .encrypt else .decrypt

/-- Decoding is total over all words (30_encoding.md R101). -/
def decodeWord (w : Word) : Except DecodeReject Instr :=
  if w &&& reservedMask ≠ 0 then .error .reservedBits
  else
    let noSel := nbField w = 0
    let noLen := lenField w = 0
    let noSteps := stepsField w = 0
    match (opField w).toNat with
    | 0 => needZero (noSel ∧ noLen ∧ noSteps) .nop
    | 1 => needZero (w.extractLsb' 5 1 = 0 ∧ noLen ∧ noSteps) (.init (dirOfBit (dirField w)))
    | 2 => needZero (noSel ∧ noLen ∧ noSteps) .aadBlock
    | 3 => needZero (noSel ∧ noSteps) (.aadFinal (lenField w))
    | 4 => needZero (noSel ∧ noLen ∧ noSteps) .encBlock
    | 5 => needZero (noSel ∧ noSteps) (.encFinal (lenField w))
    | 6 => needZero (noSel ∧ noLen ∧ noSteps) .decBlock
    | 7 => needZero (noSel ∧ noSteps) (.decFinal (lenField w))
    | 8 => needZero (noSel ∧ noLen ∧ noSteps) .finalize
    | 9 => needZero (noSel ∧ noLen ∧ noSteps) .verify
    | 10 =>
      if nbLegal (nbField w) then needZero noLen (.perm (nbField w) (stepsField w))
      else .error .reservedSize
    | 11 => needZero (noSel ∧ noLen ∧ noSteps) .clear
    | _ => .error .reservedOp

/-- The four bytes of a word in the order of 20_memory.md R65: byte `j` is bits `[8j+7 : 8j]`. -/
def wordBytes (w : Word) : List Byte :=
  [w.extractLsb' 0 8, w.extractLsb' 8 8, w.extractLsb' 16 8, w.extractLsb' 24 8]

/-- `le32(b0, b1, b2, b3)` (00_scope.md R13). -/
def le32 (b0 b1 b2 b3 : Byte) : Word :=
  b0.setWidth 32 ||| (b1.setWidth 32 <<< 8) ||| (b2.setWidth 32 <<< 16) ||| (b3.setWidth 32 <<< 24)

/-- Decoding from bytes: every command is one 32-bit word (30_encoding.md R90), little-endian
(20_memory.md R65).  The rest of the list follows the command. -/
def decodeBytes : List Byte → Except DecodeReject (Instr × List Byte)
  | b0 :: b1 :: b2 :: b3 :: rest => (decodeWord (le32 b0 b1 b2 b3)).map fun i => (i, rest)
  | _ => .error .truncated

/-- What the decoder reads from an instruction whose `nbits` bits are `w`. -/
def decodeTableWord (nbits w : Nat) : Option Instr :=
  match decodeBytes (wordBytes (BitVec.ofNat 32 (w % 2 ^ nbits))) with
  | .ok (i, _) => some i
  | .error _ => none

/-! ### The encoder -/

/-- The DIR bit of a direction (30_encoding.md R93). -/
def Dir.bit : Dir → Word
  | .encrypt => 0
  | .decrypt => 1

/-- A LEN field in its place (30_encoding.md R91). -/
def placeLen (len : BitVec 6) : Word := len.setWidth 32 <<< 8

/-- The word of a command (30_encoding.md R101, R103). -/
def encode : Instr → Word
  | .nop => 0x00000000
  | .init dir => 0x00000001 ||| (dir.bit <<< 4)
  | .aadBlock => 0x00000002
  | .aadFinal len => 0x00000003 ||| placeLen len
  | .encBlock => 0x00000004
  | .encFinal len => 0x00000005 ||| placeLen len
  | .decBlock => 0x00000006
  | .decFinal len => 0x00000007 ||| placeLen len
  | .finalize => 0x00000008
  | .verify => 0x00000009
  | .perm nb steps => 0x0000000A ||| (nb.setWidth 32 <<< 4) ||| (steps.setWidth 32 <<< 16)
  | .clear => 0x0000000B

/-- The bytes of a command, as the port carries them. -/
def encodeBytes (i : Instr) : List Byte := wordBytes (encode i)

/-! ### The opcode table (30_encoding.md R101) -/

/-- One row of the table. -/
structure OpcodeRow where
  mnemonic : String
  pattern : Word
  mask : Word
deriving DecidableEq, Repr

/-- A word matches a row when it agrees with the pattern on the masked bits. -/
def OpcodeRow.covers (r : OpcodeRow) (w : Word) : Bool := w &&& r.mask == r.pattern

/-- The rows of 30_encoding.md R101, in its order. -/
def opcodeRows : List OpcodeRow :=
  [⟨"NOP", 0x00000000, 0xFFFFFFFF⟩, ⟨"INIT", 0x00000001, 0xFFFFFFEF⟩,
   ⟨"AAD.BLOCK", 0x00000002, 0xFFFFFFFF⟩, ⟨"AAD.FINAL", 0x00000003, 0xFFFFC0FF⟩,
   ⟨"ENC.BLOCK", 0x00000004, 0xFFFFFFFF⟩, ⟨"ENC.FINAL", 0x00000005, 0xFFFFC0FF⟩,
   ⟨"DEC.BLOCK", 0x00000006, 0xFFFFFFFF⟩, ⟨"DEC.FINAL", 0x00000007, 0xFFFFC0FF⟩,
   ⟨"FINALIZE", 0x00000008, 0xFFFFFFFF⟩, ⟨"VERIFY", 0x00000009, 0xFFFFFFFF⟩,
   ⟨"PERM", 0x0000000A, 0xFF00FFCF⟩, ⟨"CLEAR", 0x0000000B, 0xFFFFFFFF⟩]

/-- The table's name of a command. -/
def Instr.mnemonic : Instr → String
  | .nop => "NOP"
  | .init _ => "INIT"
  | .aadBlock => "AAD.BLOCK"
  | .aadFinal _ => "AAD.FINAL"
  | .encBlock => "ENC.BLOCK"
  | .encFinal _ => "ENC.FINAL"
  | .decBlock => "DEC.BLOCK"
  | .decFinal _ => "DEC.FINAL"
  | .finalize => "FINALIZE"
  | .verify => "VERIFY"
  | .perm _ _ => "PERM"
  | .clear => "CLEAR"

end Sys2Proof
end

