-- ==== Sys2Proof/Config.lean ====
section
/-!
DEFINITION. The parameters the spec leaves open (00_scope.md, the table of section 3; 93_implementation_defined.md)
and the free values.  Each is an opaque constant: no proof can see which value it has, so a claim holds
whatever it is.

The other parameters stand elsewhere.  `RCON`, whose values the spec gives (40_permutation.md R133), is
`Machine/Sparkle.lean`'s `rcon`.  `SKIP_EMPTY_DATA` (42_control.md R240) has a default in the spec and both of
its settings have rules, so it is a field of `State` that nothing writes: every statement holds for both.
`SUBWORD_ACCESS` is the refusal `subwordAccess`.  `HOST_BUS`, `RESET_KIND` and `CLK_FREQ` are signal-level
(00_scope.md puts them out of scope).
-/

namespace Sys2Proof

/-- `LAT(c) - 1` (70_reset_and_hazards.md R292, 93_implementation_defined.md I2): a function of OP, and for
PERM of NB and STEPS.  Free. -/
opaque Config.latencyExtra : (op : BitVec 4) → (nb : BitVec 2) → (steps : BitVec 8) → Nat

/-- The free words: what a read of a register other than STATUS returns while BUSY = 1 (20_memory.md R75,
93_implementation_defined.md I3), and what PENDING holds after a completion (42_control.md R230, I10).
The argument is `State.freeCount`, which moves on at each use. -/
opaque Config.freeWord : Nat → Word

/-- Which 512-byte block of the platform's address space the window is (20_memory.md R61, I12). Free. -/
opaque Config.baseBlock : Nat

/-- `BASE_ADDR`: 512-byte aligned by construction (20_memory.md R61). -/
def Config.baseAddr : Nat := 512 * Config.baseBlock

end Sys2Proof
end

