-- ==== Sys2Proof/Machine/State.lean ====
section
/-!
DEFINITION. Everything the core holds (10_state.md), the host port's side of the model, the reasons a step
can stop, and the state after reset (10_state.md R43).  Plain data throughout.
-/

namespace Sys2Proof.Machine

/-- The permutation state: branch `i` is `(x[i], y[i])`; branches 0..3 are the rate and 4..7 the capacity
(10_state.md R20, R21).  Every bit pattern is legal (R22). -/
structure SparkleState where
  x : Words8
  y : Words8
deriving DecidableEq, Repr

/-- All sixteen words 0. -/
def SparkleState.zero : SparkleState := ⟨Words8.zero, Words8.zero⟩

/-- The controller's phase (10_state.md R32).  The value 7 is never held: there is no constructor for it. -/
inductive Phase where
  | idle
  | aadStart
  | aadMid
  | dataStart
  | dataMid
  | finalReady
  | done
deriving DecidableEq, Repr

/-- The result of a command, STATUS.ERR (60_exceptions.md R250).  The codes 7..15 are never held. -/
inductive ErrCode where
  | ok
  | illegal
  | sequence
  | length
  | steps
  | nokey
  | auth
deriving DecidableEq, Repr

/-- What a host access asks for. -/
inductive AccessOp where
  | read
  | write (value : Word)
deriving DecidableEq, Repr

/-- One access at the host port: a byte offset into the window (20_memory.md R61), how many bytes one beat
carries, and how many beats follow each other (more than one is a burst, R64). -/
structure Access where
  offset : Nat
  bytes : Nat
  beats : Nat
  op : AccessOp
deriving DecidableEq, Repr

/-- What the outside does in one clock cycle (20_memory.md R60, 70_reset_and_hazards.md R294). -/
inductive HostEvent where
  /-- No access in this cycle. -/
  | idle
  /-- One access at the port. -/
  | access (a : Access)
  /-- `poll` of 30_encoding.md R103: read STATUS, and again in the next cycle while BUSY = 1. -/
  | poll
  /-- The reset input is asserted and released (70_reset_and_hazards.md R280). -/
  | reset
deriving DecidableEq, Repr

/-- A host read and the word it returned. -/
structure PortRead where
  offset : Nat
  value : Word
deriving DecidableEq, Repr

/-- The machine.  The fields down to `latLeft` are the spec's; the last four are the model's own. -/
structure State where
  /-- The 512-bit permutation state (10_state.md R20). -/
  perm : SparkleState
  /-- KEY[0..7] (10_state.md R24). -/
  key : Words8
  /-- KEY_MASK[7:0], one written flag a word (10_state.md R24). -/
  keyMask : BitVec 8
  /-- NONCE[0..7] (10_state.md R25). -/
  nonce : Words8
  /-- NONCE_MASK[7:0] (10_state.md R25). -/
  nonceMask : BitVec 8
  /-- DIN[0..7], the data-in buffer (10_state.md R26). -/
  din : Words8
  /-- DOUT[0..7], the data-out buffer (10_state.md R27). -/
  dout : Words8
  /-- TAGIN[0..7], the tag to verify (10_state.md R28). -/
  tagin : Words8
  /-- PENDING, the latched command word (10_state.md R30). -/
  pending : Word
  /-- STATUS.BUSY (10_state.md R37). -/
  busy : Bool
  /-- STATUS.AUTH_OK (10_state.md R35). -/
  authOk : Bool
  /-- STATUS.DIR (10_state.md R33). -/
  dir : Dir
  /-- STATUS.OVERRUN, sticky (10_state.md R36). -/
  overrun : Bool
  /-- STATUS.PHASE (10_state.md R32). -/
  phase : Phase
  /-- STATUS.ERR (10_state.md R34). -/
  err : ErrCode
  /-- The remaining latency of the pending command, in cycles (10_state.md R41). -/
  latLeft : Nat
  /-- The build parameter SKIP_EMPTY_DATA (42_control.md R240).  Nothing writes it. -/
  skipEmptyData : Bool
  /-- Which free word comes next (20_memory.md R75, 42_control.md R230). -/
  freeCount : Nat
  /-- What the host still does, the next cycle's event first. -/
  hostQueue : List HostEvent
  /-- The words the host has read, the newest first. -/
  reads : List PortRead
deriving DecidableEq, Repr

/-- Why the machine stops with a fault. -/
inductive Fault where
  /-- The host port got an access at an offset past the 512 bytes the core decodes (20_memory.md R61): there
  is no register there.  Raised by `hostAccess`.  Safe: the real core is not even addressed. -/
  | outsideWindow (offset : Nat)
deriving DecidableEq, Repr

/-- Why the model gives a step no meaning. -/
inductive Refusal where
  /-- An instruction without a meaning.  Raised by no arm of `exec`.  Safe. -/
  | notModelled (mnemonic : String)
  /-- The host made an access that is no aligned 32-bit access: SUBWORD_ACCESS, which "a model refuses"
  (20_memory.md R64).  Raised by `hostAccess`.  Safe. -/
  | subwordAccess
deriving DecidableEq, Repr

/-- The state after reset (10_state.md R43, 70_reset_and_hazards.md R280): every field of the spec's is 0.
Of the model's own, `skipEmptyData` is the spec's default (00_scope.md), no free word is used, and the host has
nothing queued and nothing read. -/
def State.reset : State where
  perm := SparkleState.zero
  key := Words8.zero
  keyMask := 0
  nonce := Words8.zero
  nonceMask := 0
  din := Words8.zero
  dout := Words8.zero
  tagin := Words8.zero
  pending := 0
  busy := false
  authOk := false
  dir := .encrypt
  overrun := false
  phase := .idle
  err := .ok
  latLeft := 0
  skipEmptyData := false
  freeCount := 0
  hostQueue := []
  reads := []

end Sys2Proof.Machine
end

