-- ==== Sys2Proof/Machine/Operands.lean ====
section
/-!
DEFINITION. The operand forms of the commands: words as bytes (00_scope.md R13; `le32` is Decode.lean's), blocks and their padding
(00_scope.md R15, 41_sponge.md R171), the rate and the tag as words (41_sponge.md R172, R192), the legal
lengths (42_control.md R232), and the sizes and step counts of the permutation (30_encoding.md R94,
00_scope.md R6).
-/

namespace Sys2Proof.Machine

/-! ### Bytes and words -/

/-- Byte `n` of a 32-byte buffer: byte `n mod 4` of word `n div 4` (20_memory.md R65). -/
def byteAt (v : Words8) (n : Nat) : Byte := (v.get (n / 4)).extractLsb' (8 * (n % 4)) 8

/-- The buffer whose byte `n` is `f n` (00_scope.md R13: word `k` is `le32` of bytes `4k..4k+3`). -/
def ofBytes (f : Nat → Byte) : Words8 :=
  Words8.ofFn fun k => le32 (f (4 * k)) (f (4 * k + 1)) (f (4 * k + 2)) (f (4 * k + 3))

/-! ### Blocks -/

/-- `pad(B, L)`: the first `len` bytes of `b`, then 0x80 and zeros; 32 bytes are not padded
(41_sponge.md R171). -/
def pad (b : Words8) (len : Nat) : Words8 :=
  ofBytes fun k => if k < len then byteAt b k else if k = len then 0x80 else 0

/-- `O[k] = B[k] ^ R[k]` for `k < len`, and 0 from `len` on (41_sponge.md R176, R177, R187). -/
def xorBlock (b r : Words8) (len : Nat) : Words8 :=
  ofBytes fun k => if k < len then byteAt b k ^^^ byteAt r k else 0

/-- A full block has 32 bytes (00_scope.md R5). -/
def blockBytes : Nat := 32

/-! ### Views of the permutation state -/

/-- Flat word `k`: `x[k/2]` for even `k`, `y[k/2]` for odd `k` (10_state.md R20). -/
def flatWord (p : SparkleState) (k : Nat) : Word :=
  if k % 2 = 0 then p.x.get (k / 2) else p.y.get (k / 2)

/-- `p` with flat word `k` replaced (20_memory.md R66). -/
def setFlatWord (p : SparkleState) (k : Nat) (v : Word) : SparkleState :=
  if k % 2 = 0 then { p with x := p.x.set (k / 2) v } else { p with y := p.y.set (k / 2) v }

/-- The rate view `Rw`: flat words 0..7 (41_sponge.md R172). -/
def rateWords (p : SparkleState) : Words8 := Words8.ofFn fun k => flatWord p k

/-- The capacity, which is the tag after FINALIZE: flat words 8..15 (10_state.md R29, 41_sponge.md R192). -/
def capacityWords (p : SparkleState) : Words8 := Words8.ofFn fun k => flatWord p (8 + k)

/-! ### Lengths, sizes, step counts -/

/-- LEN of AAD.FINAL: 1..32 (42_control.md R232). -/
def aadLenLegal (len : Nat) : Bool := 1 ≤ len ∧ len ≤ 32

/-- LEN of ENC.FINAL and DEC.FINAL: 0..32, but 1..32 after a block and wherever SKIP_EMPTY_DATA is set
(42_control.md R232, R240). -/
def dataLenLegal (skipEmpty : Bool) (phase : Phase) (len : Nat) : Bool :=
  len ≤ 32 ∧ (1 ≤ len ∨ (phase ≠ .dataMid ∧ skipEmpty = false))

/-- The number of branches NB selects (30_encoding.md R94); NB = 3 is reserved and selects none. -/
def branchesOf (nb : BitVec 2) : Nat :=
  match nb.toNat with
  | 0 => 4
  | 1 => 6
  | 2 => 8
  | _ => 0

/-- SLIM, the steps after an intermediate block (00_scope.md R6). -/
def slim : Nat := 8

/-- BIG, the steps of initialization, finalization and each phase's last block (00_scope.md R6). -/
def big : Nat := 12

end Sys2Proof.Machine
end

