-- ==== Sys2Proof/Machine/Ops.lean ====
section
/-!
DEFINITION. The named operations on the state: starting and completing a command (42_control.md R230),
zeroize (R237), taking an error (60_exceptions.md R253), and the checks of 60_exceptions.md R252.
-/

namespace Sys2Proof.Machine

/-- What a step or a command answers. -/
abbrev Result := Host.Outcome State Fault Refusal

/-! ### Starting a command -/

/-- `LAT(c)`, at least 1: a function of OP, and for PERM of NB and STEPS (70_reset_and_hazards.md R292). -/
def latency (c : Word) : Nat :=
  1 + if opField c = 0xA then Config.latencyExtra (opField c) (nbField c) (stepsField c)
      else Config.latencyExtra (opField c) 0 0

/-- `Start(c)`: PENDING <- c, BUSY <- 1, with the command's latency ahead (42_control.md R230,
20_memory.md R72). -/
def State.start (s : State) (c : Word) : State :=
  { s with pending := c, busy := true, latLeft := latency c }

/-! ### Completing a command -/

/-- The end of every completion: BUSY <- 0 and PENDING <- undefined, which is a free word
(42_control.md R230, 93_implementation_defined.md I10). -/
def State.retire (s : State) : State :=
  { s with busy := false, latLeft := 0, pending := Config.freeWord s.freeCount, freeCount := s.freeCount + 1 }

/-- `zeroize` (42_control.md R237).  It does not change ERR, AUTH_OK, OVERRUN or BUSY. -/
def State.zeroize (s : State) : State :=
  { s with
    perm := SparkleState.zero, key := Words8.zero, keyMask := 0, nonce := Words8.zero, nonceMask := 0,
    din := Words8.zero, dout := Words8.zero, tagin := Words8.zero, dir := .encrypt, phase := .idle }

/-- What an error does to a session: any error outside IDLE, and AUTH, zeroizes (60_exceptions.md R253). -/
def State.endSession (s : State) (e : ErrCode) : State :=
  if s.phase ≠ .idle ∨ e = .auth then s.zeroize else s

/-- TAKING AN ERROR, the core's one kind of exception (60_exceptions.md R253, 42_control.md R230): it ends a
session, ERR <- code, AUTH_OK <- 0, and the command is over.  Nothing is saved and control goes nowhere
(R257), and there is no return from it: the next command runs on the state it leaves (R258). -/
def State.raiseError (s : State) (e : ErrCode) : State :=
  { s.endSession e with err := e, authOk := false }.retire

/-- `AUTH_OK <- 0`, which comes before a command's body (42_control.md R230). -/
def State.clearAuth (s : State) : State := { s with authOk := false }

/-- A command completes without an error: ERR <- 0 (42_control.md R230). -/
def State.succeed (s : State) : State := { s with err := .ok }.retire

/-- `require cond else raise e` of the commands' pseudocode; a failed check leaves `s` as the error does
(60_exceptions.md R252, R254). -/
def require (cond : Bool) (e : ErrCode) (s : State) (body : Result) : Result :=
  if cond then body else .next (s.raiseError e)

/-! ### The parts a command's body writes -/

/-- A command's result in the permutation state, with the phase it moves to. -/
def State.advance (s : State) (p : SparkleState) (next : Phase) : State :=
  { s with perm := p, phase := next }

/-- A data command's output (10_state.md R27). -/
def State.setDout (s : State) (o : Words8) : State := { s with dout := o }

/-- INIT fixes the session's direction (42_control.md R239). -/
def State.setDir (s : State) (d : Dir) : State := { s with dir := d }

/-- VERIFY's `AUTH_OK <- 1` (41_sponge.md R194). -/
def State.setAuth (s : State) : State := { s with authOk := true }

/-- CLEAR's `OVERRUN <- 0` (42_control.md R234). -/
def State.clearOverrun (s : State) : State := { s with overrun := false }

/-! ### Acceptance (42_control.md R231) -/

/-- The phases that accept the AAD commands. -/
def Phase.acceptsAad : Phase → Bool
  | .aadStart | .aadMid => true
  | .idle | .dataStart | .dataMid | .finalReady | .done => false

/-- The phases that accept the data commands; AAD_START among them, for an empty AAD (41_sponge.md R184). -/
def Phase.acceptsData : Phase → Bool
  | .aadStart | .dataStart | .dataMid => true
  | .idle | .aadMid | .finalReady | .done => false

/-- The phases that accept FINALIZE: FINAL_READY, and with SKIP_EMPTY_DATA also AAD_START and DATA_START
(42_control.md R240). -/
def Phase.acceptsFinalize (skipEmpty : Bool) : Phase → Bool
  | .finalReady => true
  | .aadStart | .dataStart => skipEmpty
  | .idle | .aadMid | .dataMid | .done => false

end Sys2Proof.Machine
end

