-- ==== Sys2Proof/Machine/Sparkle.lean ====
section
/-!
DEFINITION. The Sparkle permutation engine (40_permutation.md R130 to R142): a function of the permutation
state alone, which knows nothing of commands (00_scope.md R1).
-/

namespace Sys2Proof.Machine

/-! ### Primitives -/

/-- `rotr(v, n)` for `n` in 0..31 (00_scope.md R11). -/
def rotr (v : Word) (n : Nat) : Word := (v >>> n) ||| (v <<< (32 - n))

/-- `ell(t)` (40_permutation.md R131). -/
def ell (t : Word) : Word := rotr (t ^^^ (t <<< 16)) 16

/-- `RCON[0..7]` (40_permutation.md R133): a constant, not state (10_state.md R40).  PRESUMED: the spec marks
the values as from general knowledge (log entry 4). -/
def rcon : Words8 :=
  ⟨0xB7E15162, 0xBF715880, 0x38B4DA56, 0x324E7738, 0xBB1185EB, 0x4F7C7B57, 0xCFBFA1C8, 0xC2B3293D⟩

/-- The rotation pairs `(r1, r2)` of Alzette's four rounds (40_permutation.md R132). -/
def alzetteRotations : List (Nat × Nat) := [(31, 24), (17, 17), (0, 31), (24, 16)]

/-- One round of Alzette: `x += rotr(y, r1); y ^= rotr(x, r2); x ^= c` (40_permutation.md R134). -/
def alzetteRound (c : Word) (b : Word × Word) (r : Nat × Nat) : Word × Word :=
  let x := b.1 + rotr b.2 r.1
  let y := b.2 ^^^ rotr x r.2
  (x ^^^ c, y)

/-- `Alzette(x, y, c)` on the branch `b = (x, y)` (40_permutation.md R134). -/
def alzette (c : Word) (b : Word × Word) : Word × Word := alzetteRotations.foldl (alzetteRound c) b

/-- One round undone: `x ^= c; y ^= rotr(x, r2); x -= rotr(y, r1)` (40_permutation.md R135). -/
def alzetteRoundInv (c : Word) (b : Word × Word) (r : Nat × Nat) : Word × Word :=
  let x := b.1 ^^^ c
  let y := b.2 ^^^ rotr x r.2
  (x - rotr y r.1, y)

/-- The inverse of Alzette, its rounds in reverse order (40_permutation.md R135).  No command uses it. -/
def alzetteInv (c : Word) (b : Word × Word) : Word × Word :=
  alzetteRotations.reverse.foldl (alzetteRoundInv c) b

/-! ### The step -/

/-- Constant injection at step `s` (40_permutation.md R136). -/
def injectConstants (s : Nat) (p : SparkleState) : SparkleState :=
  { p with y := (p.y.set 0 (p.y.get 0 ^^^ rcon.get (s % 8))).set 1 (p.y.get 1 ^^^ BitVec.ofNat 32 s) }

/-- Branch `j` of the Alzette layer: the first `nb` branches pass through Alzette with the constant of their
own index, the others are left alone (40_permutation.md R137, R130). -/
def alzetteBranch (nb : Nat) (p : SparkleState) (j : Nat) : Word × Word :=
  if j < nb then alzette (rcon.get (j % 8)) (p.x.get j, p.y.get j) else (p.x.get j, p.y.get j)

/-- The Alzette layer (40_permutation.md R137). -/
def alzetteLayer (nb : Nat) (p : SparkleState) : SparkleState :=
  { x := Words8.ofFn fun j => (alzetteBranch nb p j).1
    y := Words8.ofFn fun j => (alzetteBranch nb p j).2 }

/-- `v[0] ^ v[1] ^ ... ^ v[h-1]` (40_permutation.md R138). -/
def foldXor (h : Nat) (v : Words8) : Word := (List.range h).foldl (fun a i => a ^^^ v.get i) 0

/-- One Feistel pass: `v[i+h] <- v[i+h] ^ v[i] ^ t` for `i < h = nb/2` (40_permutation.md R138). -/
def feistelPass (nb : Nat) (t : Word) (v : Words8) : Words8 :=
  Words8.ofFn fun j =>
    if nb / 2 ≤ j ∧ j < nb then v.get j ^^^ v.get (j - nb / 2) ^^^ t else v.get j

/-- The branch rotation: the right half, rotated left by one, becomes the left half, and the old left half
the right half (40_permutation.md R139, 90_conflicts.md C5). -/
def rotateBranches (nb : Nat) (v : Words8) : Words8 :=
  Words8.ofFn fun j =>
    if j < nb / 2 then v.get (nb / 2 + (j + 1) % (nb / 2))
    else if j < nb then v.get (j - nb / 2)
    else v.get j

/-- The linear layer: both Feistel passes, each with the other array's fold, then the rotation of both
arrays (40_permutation.md R138, R139). -/
def linearLayer (nb : Nat) (p : SparkleState) : SparkleState :=
  { x := rotateBranches nb (feistelPass nb (ell (foldXor (nb / 2) p.y)) p.x)
    y := rotateBranches nb (feistelPass nb (ell (foldXor (nb / 2) p.x)) p.y) }

/-- `Step(nb, s)` (40_permutation.md R140). -/
def sparkleStep (nb s : Nat) (p : SparkleState) : SparkleState :=
  linearLayer nb (alzetteLayer nb (injectConstants s p))

/-- `Sparkle(nb, steps)`: the steps `s = 0, 1, ..., steps - 1` in order (40_permutation.md R141). -/
def sparkle (nb : Nat) : (steps : Nat) → SparkleState → SparkleState
  | 0, p => p
  | n + 1, p => sparkleStep nb n (sparkle nb n p)

end Sys2Proof.Machine
end

