-- ==== Sys2Proof/Machine/Control.lean ====
section
/-!
DEFINITION. The commands outside the AEAD session: NOP, CLEAR (42_control.md R233, R234) and PERM
(40_permutation.md R143); and the completion of a word that is no command.
-/

namespace Sys2Proof.Machine

/-- NOP: no effect but ERR <- 0 and AUTH_OK <- 0 (42_control.md R233). -/
def execNop (s : State) : Result := .next s.clearAuth.succeed

/-- PERM: the raw permutation of the STATE window (40_permutation.md R143).  A term with NB = 3 is ILLEGAL;
no command word decodes to it (30_encoding.md R99). -/
def execPerm (nb : BitVec 2) (steps : BitVec 8) (s : State) : Result :=
  require (nbLegal nb) .illegal s <|
  require (s.phase == .idle) .sequence s <|
  require (steps != 0) .steps s <|
  .next (s.clearAuth.advance (sparkle (branchesOf nb) steps.toNat s.perm) .idle).succeed

/-- CLEAR: zeroize in every phase, and OVERRUN <- 0 (42_control.md R234). -/
def execClear (s : State) : Result := .next s.clearAuth.zeroize.clearOverrun.succeed

/-- A pending word that is no command completes with ILLEGAL (60_exceptions.md R250, 30_encoding.md R101). -/
def completeIllegal (s : State) : Result := .next (s.raiseError .illegal)

end Sys2Proof.Machine
end

