-- ==== Sys2Proof/Machine/Duplex.lean ====
section
/-!
DEFINITION. The Schwaemm256-256 duplex sponge as functions of the permutation state: domain constants, absorbing,
the three rho-and-whitening functions, loading, key injection and the tag comparison
(41_sponge.md R170 to R179, R191, R194).
-/

namespace Sys2Proof.Machine

/-- A0 or A1: the constant of the final AAD block (41_sponge.md R170). -/
def aadConstant (len : Nat) : Word := if len < 32 then 0x10000000 else 0x11000000

/-- M2 or M3: the constant of the final data block (41_sponge.md R170). -/
def dataConstant (len : Nat) : Word := if len < 32 then 0x12000000 else 0x13000000

/-- Domain separation: `y[7] <- y[7] ^ c` (41_sponge.md R170). -/
def addDomain (c : Word) (p : SparkleState) : SparkleState :=
  { p with y := p.y.set 7 (p.y.get 7 ^^^ c) }

/-- One array of the FeistelSwap: for `i` in 0, 1, new `v[i]` = old `v[i+2]` and new `v[i+2]` = old
`v[i+2] ^ v[i]` (41_sponge.md R173, 90_conflicts.md C1). -/
def feistelSwapHalf (v : Words8) : Words8 :=
  Words8.ofFn fun j =>
    if j < 2 then v.get (j + 2) else if j < 4 then v.get j ^^^ v.get (j - 2) else v.get j

/-- `FeistelSwap` (41_sponge.md R173). -/
def feistelSwap (p : SparkleState) : SparkleState := ⟨feistelSwapHalf p.x, feistelSwapHalf p.y⟩

/-- `Absorb(V)`: swap, XOR `V` into the rate, and whiten the rate with the capacity
(41_sponge.md R174, 90_conflicts.md C8). -/
def absorb (v : Words8) (p : SparkleState) : SparkleState :=
  let q := feistelSwap p
  { x := Words8.ofFn fun i =>
      if i < 4 then q.x.get i ^^^ v.get (2 * i) ^^^ q.x.get (4 + i % 4) else q.x.get i
    y := Words8.ofFn fun i =>
      if i < 4 then q.y.get i ^^^ v.get (2 * i + 1) ^^^ q.y.get (4 + i % 4) else q.y.get i }

/-- `rho_whi_aut(B, L)` (41_sponge.md R175). -/
def rhoWhiAut (b : Words8) (len : Nat) (p : SparkleState) : SparkleState := absorb (pad b len) p

/-- What both data directions output: the block XOR the rate before the swap (41_sponge.md R176, R177). -/
def rhoOutput (b : Words8) (len : Nat) (p : SparkleState) : Words8 := xorBlock b (rateWords p) len

/-- The state update of `rho_whi_enc(B, L)`: as `rho_whi_aut` of the plaintext (41_sponge.md R176). -/
def rhoWhiEnc (b : Words8) (len : Nat) (p : SparkleState) : SparkleState := absorb (pad b len) p

/-- The state update of `rho_whi_dec(C, L)`: a partial block absorbs the re-padded plaintext, a full block
the rate before the swap XOR the ciphertext (41_sponge.md R177, 90_conflicts.md C9). -/
def rhoWhiDec (c : Words8) (len : Nat) (p : SparkleState) : SparkleState :=
  absorb (if len < 32 then pad (rhoOutput c len p) len else (rateWords p).xor c) p

/-- `Load`: flat word `k` is `NONCE[k]` for `k < 8` and `KEY[k-8]` from 8 on (41_sponge.md R179). -/
def loadState (key nonce : Words8) : SparkleState :=
  { x := Words8.ofFn fun i => if i < 4 then nonce.get (2 * i) else key.get (2 * (i - 4))
    y := Words8.ofFn fun i => if i < 4 then nonce.get (2 * i + 1) else key.get (2 * (i - 4) + 1) }

/-- FINALIZE's key injection into the capacity (41_sponge.md R191). -/
def injectKey (key : Words8) (p : SparkleState) : SparkleState :=
  { x := Words8.ofFn fun i => if i < 4 then p.x.get i else p.x.get i ^^^ key.get (2 * (i - 4))
    y := Words8.ofFn fun i => if i < 4 then p.y.get i else p.y.get i ^^^ key.get (2 * (i - 4) + 1) }

/-- VERIFY's accumulator: the OR of the XORs of all 32 byte pairs, with no early exit
(41_sponge.md R194, R195, 90_conflicts.md C4). -/
def tagDifference (t u : Words8) : Byte :=
  (List.range 32).foldl (fun acc k => acc ||| (byteAt t k ^^^ byteAt u k)) 0

/-! ### Whole blocks: a permutation after each absorption -/

/-- One full AAD block (41_sponge.md R182). -/
def aadBlockState (b : Words8) (p : SparkleState) : SparkleState := sparkle 8 slim (rhoWhiAut b 32 p)

/-- The final AAD block (41_sponge.md R183). -/
def aadFinalState (b : Words8) (len : Nat) (p : SparkleState) : SparkleState :=
  sparkle 8 big (rhoWhiAut b len (addDomain (aadConstant len) p))

/-- One full plaintext block (41_sponge.md R186). -/
def encBlockState (b : Words8) (p : SparkleState) : SparkleState := sparkle 8 slim (rhoWhiEnc b 32 p)

/-- The final plaintext block (41_sponge.md R187). -/
def encFinalState (b : Words8) (len : Nat) (p : SparkleState) : SparkleState :=
  sparkle 8 big (rhoWhiEnc b len (addDomain (dataConstant len) p))

/-- One full ciphertext block (41_sponge.md R188). -/
def decBlockState (c : Words8) (p : SparkleState) : SparkleState := sparkle 8 slim (rhoWhiDec c 32 p)

/-- The final ciphertext block (41_sponge.md R189). -/
def decFinalState (c : Words8) (len : Nat) (p : SparkleState) : SparkleState :=
  sparkle 8 big (rhoWhiDec c len (addDomain (dataConstant len) p))

/-- INIT's state (41_sponge.md R180). -/
def initState (key nonce : Words8) : SparkleState := sparkle 8 big (loadState key nonce)

/-- FINALIZE's state (41_sponge.md R191). -/
def finalizeState (key : Words8) (p : SparkleState) : SparkleState := sparkle 8 big (injectKey key p)

end Sys2Proof.Machine
end

