-- ==== Sys2Proof/Machine/Flags.lean ====
section
/-!
DEFINITION. STATUS: its fields and the word a host reads (10_state.md R31 to R39).  The core has no other flag
(R39).
-/

namespace Sys2Proof.Machine

/-- STATUS[10:8] (10_state.md R32). -/
def Phase.code : Phase → BitVec 3
  | .idle => 0
  | .aadStart => 1
  | .aadMid => 2
  | .dataStart => 3
  | .dataMid => 4
  | .finalReady => 5
  | .done => 6

/-- STATUS[15:12] (60_exceptions.md R250). -/
def ErrCode.code : ErrCode → BitVec 4
  | .ok => 0
  | .illegal => 1
  | .sequence => 2
  | .length => 3
  | .steps => 4
  | .nokey => 5
  | .auth => 6

/-- STATUS.KEY_LOADED (10_state.md R38). -/
def keyLoaded (s : State) : Bool := s.keyMask == 0xFF

/-- STATUS.NONCE_LOADED (10_state.md R38). -/
def nonceLoaded (s : State) : Bool := s.nonceMask == 0xFF

/-- A one-bit field at its place. -/
def bitAt (n : Nat) (b : Bool) : Word := (BitVec.ofBool b).setWidth 32 <<< n

/-- The word a host reads from STATUS; every bit without a field reads 0 (10_state.md R31). -/
def statusWord (s : State) : Word :=
  bitAt 0 s.busy ||| bitAt 1 (keyLoaded s) ||| bitAt 2 (nonceLoaded s) ||| bitAt 3 s.authOk |||
  bitAt 4 (s.dir == .decrypt) ||| bitAt 5 s.overrun |||
  (s.phase.code.setWidth 32 <<< 8) ||| (s.err.code.setWidth 32 <<< 12)

end Sys2Proof.Machine
end

