-- ==== Sys2Proof/Machine/Sponge.lean ====
section
/-!
DEFINITION. The commands of the AEAD session (41_sponge.md R180 to R194).  Each meaning is what happens at the
command's completion (42_control.md R230): its checks in the order of 60_exceptions.md R252, then its body.
-/

namespace Sys2Proof.Machine

/-- INIT: start a session (41_sponge.md R180). -/
def execInit (dir : Dir) (s : State) : Result :=
  require (s.phase == .idle) .sequence s <|
  require (keyLoaded s && nonceLoaded s) .nokey s <|
  .next ((s.clearAuth.advance (initState s.key s.nonce) .aadStart).setDir dir).succeed

/-- AAD.BLOCK: absorb one full AAD block (41_sponge.md R182). -/
def execAadBlock (s : State) : Result :=
  require s.phase.acceptsAad .sequence s <|
  .next (s.clearAuth.advance (aadBlockState s.din s.perm) .aadMid).succeed

/-- AAD.FINAL: absorb the last AAD block (41_sponge.md R183). -/
def execAadFinal (len : BitVec 6) (s : State) : Result :=
  require s.phase.acceptsAad .sequence s <|
  require (aadLenLegal len.toNat) .length s <|
  .next (s.clearAuth.advance (aadFinalState s.din len.toNat s.perm) .dataStart).succeed

/-- The check of a data command: its direction and phase (42_control.md R231, R239). -/
def acceptsDataDir (dir : Dir) (s : State) : Bool := s.dir == dir && s.phase.acceptsData

/-- ENC.BLOCK: encrypt one full block (41_sponge.md R186). -/
def execEncBlock (s : State) : Result :=
  require (acceptsDataDir .encrypt s) .sequence s <|
  .next ((s.clearAuth.advance (encBlockState s.din s.perm) .dataMid).setDout
    (rhoOutput s.din blockBytes s.perm)).succeed

/-- ENC.FINAL: encrypt the last block, possibly empty (41_sponge.md R187). -/
def execEncFinal (len : BitVec 6) (s : State) : Result :=
  require (acceptsDataDir .encrypt s) .sequence s <|
  require (dataLenLegal s.skipEmptyData s.phase len.toNat) .length s <|
  .next ((s.clearAuth.advance (encFinalState s.din len.toNat s.perm) .finalReady).setDout
    (rhoOutput s.din len.toNat (addDomain (dataConstant len.toNat) s.perm))).succeed

/-- DEC.BLOCK: decrypt one full block (41_sponge.md R188). -/
def execDecBlock (s : State) : Result :=
  require (acceptsDataDir .decrypt s) .sequence s <|
  .next ((s.clearAuth.advance (decBlockState s.din s.perm) .dataMid).setDout
    (rhoOutput s.din blockBytes s.perm)).succeed

/-- DEC.FINAL: decrypt the last block, possibly empty (41_sponge.md R189). -/
def execDecFinal (len : BitVec 6) (s : State) : Result :=
  require (acceptsDataDir .decrypt s) .sequence s <|
  require (dataLenLegal s.skipEmptyData s.phase len.toNat) .length s <|
  .next ((s.clearAuth.advance (decFinalState s.din len.toNat s.perm) .finalReady).setDout
    (rhoOutput s.din len.toNat (addDomain (dataConstant len.toNat) s.perm))).succeed

/-- FINALIZE: re-inject the key and permute (41_sponge.md R191, 42_control.md R240). -/
def execFinalize (s : State) : Result :=
  require (s.phase.acceptsFinalize s.skipEmptyData) .sequence s <|
  .next (s.clearAuth.advance (finalizeState s.key s.perm) .done).succeed

/-- VERIFY: compare the computed tag with TAGIN and end the session, in both outcomes
(41_sponge.md R194, R195). -/
def execVerify (s : State) : Result :=
  require (s.phase == .done && s.dir == .decrypt) .sequence s <|
  if tagDifference (capacityWords s.perm) s.tagin ≠ 0 then .next (s.clearAuth.zeroize.raiseError .auth)
  else .next s.clearAuth.zeroize.setAuth.succeed

end Sys2Proof.Machine
end

