-- ==== Sys2Proof/Machine/Dispatch.lean ====
section
/-!
DEFINITION. One arm per command (30_encoding.md R92), each a call of its meaning.
-/

namespace Sys2Proof.Machine

def exec (i : Instr) (s : State) : Host.Outcome State Fault Refusal :=
  match i with
  | .nop => Sys2Proof.Machine.execNop s
  | .init dir => Sys2Proof.Machine.execInit dir s
  | .aadBlock => Sys2Proof.Machine.execAadBlock s
  | .aadFinal len => Sys2Proof.Machine.execAadFinal len s
  | .encBlock => Sys2Proof.Machine.execEncBlock s
  | .encFinal len => Sys2Proof.Machine.execEncFinal len s
  | .decBlock => Sys2Proof.Machine.execDecBlock s
  | .decFinal len => Sys2Proof.Machine.execDecFinal len s
  | .finalize => Sys2Proof.Machine.execFinalize s
  | .verify => Sys2Proof.Machine.execVerify s
  | .perm nb steps => Sys2Proof.Machine.execPerm nb steps s
  | .clear => Sys2Proof.Machine.execClear s

end Sys2Proof.Machine
end

