-- ==== Sys2Proof/Machine/Port.lean ====
section
/-!
DEFINITION. The host port: the register map, what a read returns and a write does (20_memory.md R60 to R82),
one cycle of the outside (an access, a poll, the reset input), and the fetch of the pending command.
-/

namespace Sys2Proof.Machine

/-! ### The window -/

/-- The size of the window in bytes (20_memory.md R61). -/
def windowBytes : Nat := 0x200

/-- The byte offset of a platform address in the window, if the core decodes it (20_memory.md R61). -/
def windowOffset (addr : Nat) : Option Nat :=
  if Config.baseAddr ≤ addr ∧ addr < Config.baseAddr + windowBytes then some (addr - Config.baseAddr) else none

/-- The registers of the window (20_memory.md R62). -/
inductive Reg where
  | cmd
  | status
  | reserved
  | state (k : Fin 16)
  | key (k : Fin 8)
  | nonce (k : Fin 8)
  | din (k : Fin 8)
  | dout (k : Fin 8)
  | tag (k : Fin 8)
  | tagin (k : Fin 8)
deriving DecidableEq, Repr

/-- The register map (20_memory.md R62): the register that holds the byte at `off`. -/
def regAt (off : Nat) : Reg :=
  if off < 0x004 then .cmd
  else if off < 0x008 then .status
  else if off < 0x040 then .reserved
  else if off < 0x080 then .state (Fin.ofNat 16 ((off - 0x040) / 4))
  else if off < 0x0A0 then .key (Fin.ofNat 8 ((off - 0x080) / 4))
  else if off < 0x0C0 then .nonce (Fin.ofNat 8 ((off - 0x0A0) / 4))
  else if off < 0x0E0 then .din (Fin.ofNat 8 ((off - 0x0C0) / 4))
  else if off < 0x100 then .dout (Fin.ofNat 8 ((off - 0x0E0) / 4))
  else if off < 0x120 then .tag (Fin.ofNat 8 ((off - 0x100) / 4))
  else if off < 0x140 then .tagin (Fin.ofNat 8 ((off - 0x120) / 4))
  else .reserved

/-! ### The registers while BUSY = 0 -/

/-- TAG shows the capacity in DONE of an encrypt session (20_memory.md R70). -/
def tagVisible (s : State) : Bool := s.phase == .done && s.dir == .encrypt

/-- What a host read returns (20_memory.md R66 to R74). -/
def readReg (s : State) : Reg → Word
  | .cmd => 0
  | .status => statusWord s
  | .reserved => 0
  | .state k => if s.phase = .idle then flatWord s.perm k else 0
  | .key _ => 0
  | .nonce _ => 0
  | .din k => s.din.get k
  | .dout k => s.dout.get k
  | .tag k => if tagVisible s then flatWord s.perm (8 + k) else 0
  | .tagin _ => 0

/-- A written flag set (20_memory.md R67). -/
def setMaskBit (m : BitVec 8) (k : Fin 8) : BitVec 8 := m ||| (1 <<< k.val)

/-- What a host write does (20_memory.md R66 to R74).  A write that is ignored changes nothing. -/
def writeReg (s : State) (v : Word) : Reg → State
  | .cmd => s.start v
  | .status => s
  | .reserved => s
  | .state k => if s.phase = .idle then { s with perm := setFlatWord s.perm k v } else s
  | .key k =>
    if s.phase = .idle then { s with key := s.key.set k v, keyMask := setMaskBit s.keyMask k } else s
  | .nonce k =>
    if s.phase = .idle then { s with nonce := s.nonce.set k v, nonceMask := setMaskBit s.nonceMask k } else s
  | .din k => { s with din := s.din.set k v }
  | .dout _ => s
  | .tag _ => s
  | .tagin k => { s with tagin := s.tagin.set k v }

/-! ### Accesses, busy or not -/

/-- A read that has no value of its own: not STATUS, and BUSY = 1 (20_memory.md R75). -/
def readIsFree (s : State) (r : Reg) : Bool := s.busy && r != .status

/-- The word a host read returns: while BUSY = 1 only STATUS has one, every other read returns a free word
(20_memory.md R73, R75). -/
def readValue (s : State) (r : Reg) : Word :=
  if readIsFree s r then Config.freeWord s.freeCount else readReg s r

/-- A host read has no side effect in the core (20_memory.md R76); the model records what it returned. -/
def State.hostRead (s : State) (off : Nat) : State :=
  { s with
    reads := ⟨off, readValue s (regAt off)⟩ :: s.reads
    freeCount := if readIsFree s (regAt off) then s.freeCount + 1 else s.freeCount }

/-- A host write: while BUSY = 1 it is dropped and sets OVERRUN (20_memory.md R75). -/
def State.hostWrite (s : State) (off : Nat) (v : Word) : State :=
  if s.busy then { s with overrun := true } else writeReg s v (regAt off)

/-- An aligned 32-bit access (20_memory.md R63). -/
def Access.isWord (a : Access) : Bool := a.offset % 4 == 0 && a.bytes == 4 && a.beats == 1

/-- One access: past the window there is no register (20_memory.md R61), and anything but an aligned 32-bit
access is refused (R64). -/
def hostAccess (a : Access) (s : State) : Result :=
  if windowBytes ≤ a.offset then .fault (.outsideWindow a.offset)
  else if a.isWord then
    match a.op with
    | .read => .next (s.hostRead a.offset)
    | .write v => .next (s.hostWrite a.offset v)
  else .refused .subwordAccess

/-- The reset input (70_reset_and_hazards.md R280): every piece of the core's state takes its reset value, and
a command in progress is abandoned.  The build parameter and the host's side go on. -/
def State.applyReset (s : State) : State :=
  { State.reset with
    skipEmptyData := s.skipEmptyData, freeCount := s.freeCount, hostQueue := s.hostQueue, reads := s.reads }

/-- The offset of STATUS (20_memory.md R62). -/
def statusOffset : Nat := 0x004

/-- One event of the outside. -/
def hostEvent (e : HostEvent) (s : State) : Result :=
  match e with
  | .idle => .next s
  | .access a => hostAccess a s
  | .poll =>
    let t := s.hostRead statusOffset
    .next (if s.busy then { t with hostQueue := .poll :: t.hostQueue } else t)
  | .reset => .next s.applyReset

/-- A cycle of the pending command's latency passes (10_state.md R41). -/
def State.tick (s : State) : State := { s with latLeft := s.latLeft - 1 }

/-- One cycle in which no command completes: the next event of the outside takes place, if there is one. -/
def hostCycle (s : State) : Result :=
  match s.hostQueue with
  | [] => .next s.tick
  | e :: rest => hostEvent e { s.tick with hostQueue := rest }

/-! ### The pending command -/

/-- A command completes now: BUSY = 1 and its latency has passed (42_control.md R230). -/
def completesNow (s : State) : Bool := s.busy && s.latLeft == 0

/-- The command the pending word stands for, if it is one (30_encoding.md R101). -/
def pendingCommand (s : State) : Option Instr :=
  match decodeWord s.pending with
  | .ok i => some i
  | .error _ => none

/-- `s` as it is when the command word `w` has been written to CMD and its latency has passed. -/
def State.withPending (s : State) (w : Word) : State :=
  { s with pending := w, busy := true, latLeft := 0 }

end Sys2Proof.Machine
end

