-- ==== Sys2Proof/Machine/Step.lean ====
section
/-!
DEFINITION. One step: either the pending command completes, whole and between two host accesses
(20_memory.md R77), or one clock cycle passes with what the outside does in it.
-/

namespace Sys2Proof.Machine

/-- One step of the core. -/
def step (s : State) : Host.Outcome State Fault Refusal :=
  if completesNow s then
    match pendingCommand s with
    | some i => exec i s
    | none => completeIllegal s
  else hostCycle s

/-- `s` with the command whose `nbits` bits are `w` where the next step takes it from: latched in PENDING, its
latency over.  It stands for the host's write to CMD and the cycles up to the completion (42_control.md R230). -/
def State.withFetchWord (s : State) (nbits w : Nat) : State :=
  s.withPending (BitVec.ofNat 32 (w % 2 ^ nbits))

end Sys2Proof.Machine
end

