-- ==== Sys2Proof/Machine/HostProgram.lean ====
section
/-!
DEFINITION. The host's side, as the spec writes it: the assembler syntax and the pseudo-instructions
(30_encoding.md R103, R104) as lists of port events, the chunking of byte strings (41_sponge.md R181), and
whole calls (R196, R197): once as functions of byte strings, and once as what a host that follows R104 gets
from the core.
-/

namespace Sys2Proof.Machine

/-! ### Syntax (30_encoding.md R103) -/

/-- A command as a program writes it, its operands as numbers. -/
inductive AsmCommand where
  | nop
  | initEnc
  | initDec
  | aadBlock
  | aadFinal (len : Nat)
  | encBlock
  | encFinal (len : Nat)
  | decBlock
  | decFinal (len : Nat)
  | finalize
  | verify
  | perm (nb steps : Nat)
  | clear
deriving DecidableEq, Repr

/-- The command a line stands for, where its operands are in the ranges of 30_encoding.md R103. -/
def assemble : AsmCommand → Option Instr
  | .nop => some .nop
  | .initEnc => some (.init .encrypt)
  | .initDec => some (.init .decrypt)
  | .aadBlock => some .aadBlock
  | .aadFinal len => if 1 ≤ len ∧ len ≤ 32 then some (.aadFinal (BitVec.ofNat 6 len)) else none
  | .encBlock => some .encBlock
  | .encFinal len => if len ≤ 32 then some (.encFinal (BitVec.ofNat 6 len)) else none
  | .decBlock => some .decBlock
  | .decFinal len => if len ≤ 32 then some (.decFinal (BitVec.ofNat 6 len)) else none
  | .finalize => some .finalize
  | .verify => some .verify
  | .perm nb steps =>
    if (nb = 4 ∨ nb = 6 ∨ nb = 8) ∧ 1 ≤ steps ∧ steps ≤ 255 then
      some (.perm (BitVec.ofNat 2 (nb / 2 - 2)) (BitVec.ofNat 8 steps))
    else none
  | .clear => some .clear

/-- `wr OFF, V`. -/
def wr (off : Nat) (v : Word) : HostEvent := .access ⟨off, 4, 1, .write v⟩

/-- `rd OFF`. -/
def rd (off : Nat) : HostEvent := .access ⟨off, 4, 1, .read⟩

/-! ### Register names (30_encoding.md R103) -/

/-- `CMD`. -/
def cmdOffset : Nat := 0x000
/-- `KEY`. -/
def keyOffset : Nat := 0x080
/-- `NONCE`. -/
def nonceOffset : Nat := 0x0A0
/-- `DIN`. -/
def dinOffset : Nat := 0x0C0
/-- `DOUT`. -/
def doutOffset : Nat := 0x0E0
/-- `TAG`. -/
def tagOffset : Nat := 0x100
/-- `TAGIN`. -/
def taginOffset : Nat := 0x120

/-! ### Byte strings and blocks -/

/-- A byte string of up to 32 bytes as eight words, zero-extended (00_scope.md R13, 30_encoding.md R104). -/
def packBlock (b : List Byte) : Words8 := ofBytes fun k => b.getD k 0

/-- Bytes `[0, len)` of a buffer (30_encoding.md R104, `rdblock`). -/
def takeBytes (v : Words8) (len : Nat) : List Byte := (List.range len).map (byteAt v)

/-- The chunking of 41_sponge.md R181, with `fuel` an upper bound on the number of full blocks: while more
than 32 bytes remain, the next 32 form a full block; the rest is the final block. -/
def chunksAux : (fuel : Nat) → List Byte → List (List Byte)
  | 0, d => [d]
  | n + 1, d => if 32 < d.length then d.take 32 :: chunksAux n (d.drop 32) else [d]

/-- The blocks of a byte string, the final block last (41_sponge.md R181).  The empty string has one block of
length 0. -/
def chunks (d : List Byte) : List (List Byte) := chunksAux d.length d

/-- The blocks of an AAD string: an empty AAD has none (41_sponge.md R184). -/
def aadChunks (a : List Byte) : List (List Byte) := if a = [] then [] else chunks a

/-- The blocks of a message: the data phase is never skipped, but where SKIP_EMPTY_DATA is set and the message
is empty (41_sponge.md R190, 42_control.md R240). -/
def dataChunks (skip : Bool) (m : List Byte) : List (List Byte) :=
  if skip ∧ m = [] then [] else chunks m

/-! ### Pseudo-instructions as port events (30_encoding.md R104) -/

/-- `do C`. -/
def doEvents (i : Instr) : List HostEvent := [wr cmdOffset (encode i), .poll]

/-- Eight writes from `base` on: `ldkey`, `ldnonce`, `lddin`, `ldtagin`. -/
def loadEvents (base : Nat) (b : List Byte) : List HostEvent :=
  (List.range 8).map fun k => wr (base + 4 * k) ((packBlock b).get k)

/-- Eight reads from `base` on: `rdblock` and `rdtag`. -/
def readEvents (base : Nat) : List HostEvent := (List.range 8).map fun k => rd (base + 4 * k)

/-- The commands of one phase: `block` for each full block, `final` with its length for the last one, and
`after` (the host's reads) after each. -/
def phaseEvents (block : Instr) (final : BitVec 6 → Instr) (after : List HostEvent) :
    List (List Byte) → List HostEvent
  | [] => []
  | [b] => loadEvents dinOffset b ++ doEvents (final (BitVec.ofNat 6 b.length)) ++ after
  | b :: bs => loadEvents dinOffset b ++ doEvents block ++ after ++ phaseEvents block final after bs

/-- `ENCRYPT K, N, A, P`. -/
def encryptEvents (skip : Bool) (k n a p : List Byte) : List HostEvent :=
  loadEvents keyOffset k ++ loadEvents nonceOffset n ++ doEvents (.init .encrypt) ++
  phaseEvents .aadBlock .aadFinal [] (aadChunks a) ++
  phaseEvents .encBlock .encFinal (readEvents doutOffset) (dataChunks skip p) ++
  doEvents .finalize ++ readEvents tagOffset ++ doEvents .clear

/-- `DECRYPT K, N, A, C, T`. -/
def decryptEvents (skip : Bool) (k n a c t : List Byte) : List HostEvent :=
  loadEvents keyOffset k ++ loadEvents nonceOffset n ++ doEvents (.init .decrypt) ++
  phaseEvents .aadBlock .aadFinal [] (aadChunks a) ++
  phaseEvents .decBlock .decFinal (readEvents doutOffset) (dataChunks skip c) ++
  doEvents .finalize ++ loadEvents taginOffset t ++ doEvents .verify

/-- `SPARKLE256 s`, `SPARKLE384 s`, `SPARKLE512 s` for NB = 0, 1, 2. -/
def sparkleEvents (nb : BitVec 2) (steps : BitVec 8) : List HostEvent := doEvents (.perm nb steps)

/-- A write to CMD: one command (30_encoding.md R90). -/
def isCommandWrite : HostEvent → Bool
  | .access ⟨off, _, _, .write _⟩ => off == cmdOffset
  | .access ⟨_, _, _, .read⟩ => false
  | .idle | .poll | .reset => false

/-- How many commands a list of events gives. -/
def commandCount (es : List HostEvent) : Nat := (es.filter isCommandWrite).length

/-! ### Whole calls as functions of byte strings (41_sponge.md R196, R197) -/

/-- The AAD phase. -/
def aadPhase : List (List Byte) → SparkleState → SparkleState
  | [], p => p
  | [b], p => aadFinalState (packBlock b) b.length p
  | b :: bs, p => aadPhase bs (aadBlockState (packBlock b) p)

/-- The data phase of an encryption: the ciphertext and the state after it. -/
def encPhase : List (List Byte) → SparkleState → List Byte × SparkleState
  | [], p => ([], p)
  | [b], p =>
    (takeBytes (rhoOutput (packBlock b) b.length p) b.length, encFinalState (packBlock b) b.length p)
  | b :: bs, p =>
    let r := encPhase bs (encBlockState (packBlock b) p)
    (takeBytes (rhoOutput (packBlock b) 32 p) 32 ++ r.1, r.2)

/-- The data phase of a decryption: the plaintext and the state after it. -/
def decPhase : List (List Byte) → SparkleState → List Byte × SparkleState
  | [], p => ([], p)
  | [c], p =>
    (takeBytes (rhoOutput (packBlock c) c.length p) c.length, decFinalState (packBlock c) c.length p)
  | c :: cs, p =>
    let r := decPhase cs (decBlockState (packBlock c) p)
    (takeBytes (rhoOutput (packBlock c) 32 p) 32 ++ r.1, r.2)

/-- INIT and the AAD phase. -/
def startPhase (k n a : List Byte) : SparkleState :=
  aadPhase (aadChunks a) (initState (packBlock k) (packBlock n))

/-- `encrypt(key, nonce, plaintext, aad)`: the ciphertext and the tag (41_sponge.md R196). -/
def aeadEncrypt (skip : Bool) (k n a p : List Byte) : List Byte × List Byte :=
  let r := encPhase (dataChunks skip p) (startPhase k n a)
  (r.1, takeBytes (capacityWords (finalizeState (packBlock k) r.2)) 32)

/-- `decrypt(key, nonce, ciphertext, tag, aad)`: the plaintext, or nothing where the tag differs
(41_sponge.md R197). -/
def aeadDecrypt (skip : Bool) (k n a c t : List Byte) : Option (List Byte) :=
  let r := decPhase (dataChunks skip c) (startPhase k n a)
  if tagDifference (capacityWords (finalizeState (packBlock k) r.2)) (packBlock t) = 0 then some r.1 else none

/-! ### Whole calls as a host gets them from the core (30_encoding.md R104) -/

/-- `do C`: the write to CMD, and the state when the poll ends, the latency over (42_control.md R230). -/
def doCommand (i : Instr) (s : State) : State :=
  match step { s.hostWrite cmdOffset (encode i) with latLeft := 0 } with
  | .next t => t
  | .fault _ => s
  | .refused _ => s

/-- `ldkey`, `ldnonce`, `lddin`, `ldtagin`: eight host writes. -/
def loadBuffer (base : Nat) (b : List Byte) (s : State) : State :=
  (List.range 8).foldl (fun s k => s.hostWrite (base + 4 * k) ((packBlock b).get k)) s

/-- The eight words a host reads from `base` on (`rdblock`, `rdtag`). -/
def readBuffer (base : Nat) (s : State) : Words8 := Words8.ofFn fun k => readValue s (regAt (base + 4 * k))

/-- One phase of a call: the bytes read from DOUT and the state at its end. -/
def runPhase (block : Instr) (final : BitVec 6 → Instr) : List (List Byte) → State → List Byte × State
  | [], s => ([], s)
  | [b], s =>
    let t := doCommand (final (BitVec.ofNat 6 b.length)) (loadBuffer dinOffset b s)
    (takeBytes (readBuffer doutOffset t) b.length, t)
  | b :: bs, s =>
    let t := doCommand block (loadBuffer dinOffset b s)
    let r := runPhase block final bs t
    (takeBytes (readBuffer doutOffset t) 32 ++ r.1, r.2)

/-- `ldkey K ; ldnonce N ; do INIT ; ` the AAD phase. -/
def runStart (dir : Dir) (k n a : List Byte) (s : State) : State :=
  (runPhase .aadBlock .aadFinal (aadChunks a)
    (doCommand (.init dir) (loadBuffer nonceOffset n (loadBuffer keyOffset k s)))).2

/-- `ENCRYPT K, N, A, P`: the ciphertext, the tag the host reads, and the state after CLEAR. -/
def runEncrypt (k n a p : List Byte) (s : State) : List Byte × List Byte × State :=
  let r := runPhase .encBlock .encFinal (dataChunks s.skipEmptyData p) (runStart .encrypt k n a s)
  let t := doCommand .finalize r.2
  (r.1, takeBytes (readBuffer tagOffset t) 32, doCommand .clear t)

/-- `DECRYPT K, N, A, C, T`: what the host read from DOUT and the state after VERIFY. -/
def runDecrypt (k n a c t : List Byte) (s : State) : List Byte × State :=
  let r := runPhase .decBlock .decFinal (dataChunks s.skipEmptyData c) (runStart .decrypt k n a s)
  (r.1, doCommand .verify (loadBuffer taginOffset t (doCommand .finalize r.2)))

/-- The result of `DECRYPT`: the plaintext only where AUTH_OK = 1; the host withholds it otherwise
(30_encoding.md R104, 70_reset_and_hazards.md R291). -/
def decryptResult (r : List Byte × State) : Option (List Byte) := if r.2.authOk then some r.1 else none

end Sys2Proof.Machine
end

