-- ==== Sys2Proof/Safety.lean ====
section
/-!
DEFINITION. What claims speak of: the answers of a step, sessions and zeroized states, the invariant of the
machine, the acceptance table and the error priority as tables, and agreement of two states.
-/

namespace Sys2Proof.Machine

/-- The host's next event has a meaning: it is no access that is refused or past the window
(20_memory.md R61, R64). -/
def HostEvent.wellFormed : HostEvent → Bool
  | .idle => true
  | .access a => a.isWord && decide (a.offset < windowBytes)
  | .poll => true
  | .reset => true

/-- A host program has ended: no access is left and the last command has completed
(70_reset_and_hazards.md R296). -/
def programEnded (s : State) : Bool := s.hostQueue == [] && !s.busy

/-- A session is open (42_control.md R236). -/
def State.inSession (s : State) : Prop := s.phase ≠ .idle

/-- Everything zeroize clears is clear (42_control.md R237). -/
def State.zeroized (s : State) : Prop :=
  s.perm = SparkleState.zero ∧ s.key = Words8.zero ∧ s.nonce = Words8.zero ∧ s.din = Words8.zero ∧
  s.dout = Words8.zero ∧ s.tagin = Words8.zero ∧ s.keyMask = 0 ∧ s.nonceMask = 0 ∧ s.dir = .encrypt ∧
  s.phase = .idle

/-- The invariant of the machine. -/
structure State.Inv (s : State) : Prop where
  /-- DIR is 0 in IDLE (10_state.md R33). -/
  dir_idle : s.phase = .idle → s.dir = .encrypt
  /-- A session has its key and its nonce (41_sponge.md R180, 42_control.md R238). -/
  session_loaded : s.phase ≠ .idle → s.keyMask = 0xFF ∧ s.nonceMask = 0xFF
  /-- AUTH_OK = 1 only after a VERIFY that matched, which ended the session (10_state.md R35). -/
  auth_ok : s.authOk = true → s.err = .ok ∧ s.phase = .idle
  /-- No latency is left where no command runs (10_state.md R37). -/
  idle_latency : s.busy = false → s.latLeft = 0
  /-- At most `LAT(PENDING)` cycles are left (70_reset_and_hazards.md R292). -/
  latency_bound : s.busy = true → s.latLeft ≤ latency s.pending
  /-- DOUT is clear until a session's first data command (10_state.md R27). -/
  dout_clear : s.phase = .idle ∨ s.phase = .aadStart ∨ s.phase = .aadMid ∨ s.phase = .dataStart →
    s.dout = Words8.zero

/-! ### Tables -/

/-- The acceptance and transition table (42_control.md R231, R240): the phase a command moves to from `q`, or
none where it raises SEQUENCE. -/
def phaseAfter (skip : Bool) (dir : Dir) (i : Instr) (q : Phase) : Option Phase :=
  match i with
  | .nop => some q
  | .init _ => if q = .idle then some .aadStart else none
  | .aadBlock => if q = .aadStart ∨ q = .aadMid then some .aadMid else none
  | .aadFinal _ => if q = .aadStart ∨ q = .aadMid then some .dataStart else none
  | .encBlock =>
    if dir = .encrypt ∧ (q = .aadStart ∨ q = .dataStart ∨ q = .dataMid) then some .dataMid else none
  | .encFinal _ =>
    if dir = .encrypt ∧ (q = .aadStart ∨ q = .dataStart ∨ q = .dataMid) then some .finalReady else none
  | .decBlock =>
    if dir = .decrypt ∧ (q = .aadStart ∨ q = .dataStart ∨ q = .dataMid) then some .dataMid else none
  | .decFinal _ =>
    if dir = .decrypt ∧ (q = .aadStart ∨ q = .dataStart ∨ q = .dataMid) then some .finalReady else none
  | .finalize =>
    if q = .finalReady ∨ (skip = true ∧ (q = .aadStart ∨ q = .dataStart)) then some .done else none
  | .verify => if dir = .decrypt ∧ q = .done then some .idle else none
  | .perm _ _ => if q = .idle then some .idle else none
  | .clear => some .idle

/-- The range of LEN of ENC.FINAL and DEC.FINAL (42_control.md R232): the column of SKIP_EMPTY_DATA and the row
of the phase give its least value. -/
def dataLenBad (skip : Bool) (q : Phase) (len : BitVec 6) : Bool :=
  decide (32 < len.toNat) || (len == 0 && (skip || q == .dataMid))

/-- The one error a command reports, by priority (60_exceptions.md R250, R252). -/
def commandError (s : State) (i : Instr) : ErrCode :=
  if i.wellFormed = false then .illegal
  else if phaseAfter s.skipEmptyData s.dir i s.phase = none then .sequence
  else
    match i with
    | .aadFinal len => if len = 0 ∨ 32 < len.toNat then .length else .ok
    | .encFinal len => if dataLenBad s.skipEmptyData s.phase len then .length else .ok
    | .decFinal len => if dataLenBad s.skipEmptyData s.phase len then .length else .ok
    | .perm _ steps => if steps = 0 then .steps else .ok
    | .init _ => if s.keyMask ≠ 0xFF ∨ s.nonceMask ≠ 0xFF then .nokey else .ok
    | .verify => if capacityWords s.perm ≠ s.tagin then .auth else .ok
    | .nop => .ok
    | .aadBlock => .ok
    | .encBlock => .ok
    | .decBlock => .ok
    | .finalize => .ok
    | .clear => .ok

/-! ### Sequences of commands -/

/-- The state after a command that completes without an error. -/
def acceptCommand (c : Instr) (s : State) : Option State :=
  match exec c s with
  | .next t => if t.err = .ok then some t else none
  | .fault _ => none
  | .refused _ => none

/-- The state after a sequence of commands, each of which completes without an error (41_sponge.md R181). -/
def acceptAll : List Instr → State → Option State
  | [], s => some s
  | c :: cs, s => (acceptCommand c s).bind (acceptAll cs)

/-! ### Agreement of two states -/

/-- The states agree on everything but the data (the permutation state, KEY, NONCE, DIN, DOUT and TAGIN) and PENDING,
which is undefined where no command runs (42_control.md R230). -/
def agreeOnControl (s t : State) : Prop :=
  s = { t with
    perm := s.perm, key := s.key, nonce := s.nonce, din := s.din, dout := s.dout, tagin := s.tagin,
    pending := s.pending }

/-- The states agree on everything but what the host must not see: KEY, NONCE and TAGIN in every phase, and
outside IDLE the permutation state, but for the tag of an encrypt session (20_memory.md R82). -/
def agreeOnVisible (s t : State) : Prop :=
  s = { t with key := s.key, nonce := s.nonce, tagin := s.tagin, perm := s.perm } ∧
  (s.phase = .idle → s.perm = t.perm) ∧
  (s.phase = .done → s.dir = .encrypt → capacityWords s.perm = capacityWords t.perm)

end Sys2Proof.Machine
end

