-- ==== Sys2Proof/Certificates/Slice0/Obligations.lean ====
section
/-!
DEFINITION. The statements for the provers.
-/

open Sys2Proof Sys2Proof.Machine

/-! ### Encoding -/

/-- 30_encoding.md R90, R91, R101: the decoder reads back every command the encoder writes, with every value of
every field, from the word and from its bytes. -/
def Obligations.DecodeOfEncode : Prop :=
  ∀ i : Instr, i.wellFormed = true →
    decodeWord (encode i) = .ok i ∧ ∀ rest, decodeBytes (encodeBytes i ++ rest) = .ok (i, rest)

/-- 30_encoding.md R97 to R101: a word that decodes is the encoding of what it decodes to, so that no set bit of
a command word is ignored, and the command is one that the encoding has. -/
def Obligations.EncodeOfDecode : Prop :=
  ∀ (w : Word) (i : Instr), decodeWord w = .ok i → encode i = w ∧ i.wellFormed = true

/-- 30_encoding.md R101: a word selects an operation exactly when it matches one row of the table and is not
PERM with NB = 3, and every other word completes with ILLEGAL; the row is unique, it carries the operation's
mnemonic, and the operation's fields are the free bits that the row names. -/
def Obligations.DecodeFollowsOpcodeTable : Prop :=
  ∀ w : Word,
    ((∃ i, decodeWord w = .ok i) ↔
      (∃ r ∈ opcodeRows, r.covers w = true) ∧ ¬ (w &&& 0xFF00FFCF = 0x0000000A ∧ nbField w = 3)) ∧
    (∀ i, decodeWord w = .ok i → ∃ r ∈ opcodeRows, r.mnemonic = i.mnemonic ∧ r.covers w = true) ∧
    (∀ r ∈ opcodeRows, ∀ r' ∈ opcodeRows, r.covers w = true → r'.covers w = true → r = r') ∧
    (∀ d, decodeWord w = .ok (.init d) → (d = .decrypt ↔ w.extractLsb' 4 1 = 1)) ∧
    (∀ len, decodeWord w = .ok (.aadFinal len) ∨ decodeWord w = .ok (.encFinal len) ∨
      decodeWord w = .ok (.decFinal len) → len = w.extractLsb' 8 6) ∧
    (∀ nb steps, decodeWord w = .ok (.perm nb steps) →
      nb = w.extractLsb' 4 2 ∧ nb ≠ 3 ∧ steps = w.extractLsb' 16 8) ∧
    (∀ s : State, completesNow s = true → s.pending = w →
      ∃ t, step s = .next t ∧ (t.err = .illegal ↔ ¬ ∃ i, decodeWord w = .ok i))

/-- Some words of 30_encoding.md R103 and 95_test_vectors.md T4, written out bit by bit: three commands, and one word
for each ground of rejection of R97 to R99. -/
def Obligations.DecodeOfWrittenWords : Prop :=
  decodeWord 0b00000000000000000000000000010001 = .ok (.init .decrypt) ∧
  decodeWord 0b00000000000000000010000000000011 = .ok (.aadFinal 32) ∧
  decodeWord 0b00000000000011000000000000101010 = .ok (.perm 2 12) ∧
  decodeWord 0b00000000000000000000000001000000 = .error .reservedBits ∧
  decodeWord 0b00000000000000010000000000000001 = .error .unusedField ∧
  decodeWord 0b00000000000000000000000000001100 = .error .reservedOp ∧
  decodeWord 0b00000000000011000000000000111010 = .error .reservedSize

/-! ### The step -/

/-- 42_control.md R230: when the latency of the pending command has passed, the step is the completion of the
command that PENDING decodes to, and of nothing else.  That a completion is a step of its own is the model's
choice (log entry 2). -/
def Obligations.StepRunsPendingCommand : Prop :=
  ∀ (s : State) (i : Instr), s.busy = true → s.latLeft = 0 → decodeWord s.pending = .ok i →
    step s = exec i s

/-- 30_encoding.md R97 to R101, 60_exceptions.md R253: a pending word that is no command completes with ILLEGAL;
it ends and zeroizes an open session, and in IDLE it changes ERR and AUTH_OK alone. -/
def Obligations.UndecodedWordRaisesIllegal : Prop :=
  ∀ (s : State) (e : DecodeReject), s.busy = true → s.latLeft = 0 → decodeWord s.pending = .error e →
    (s.phase = .idle → step s = .next ({ s with err := .illegal, authOk := false } : State).retire) ∧
    (s.phase ≠ .idle →
      ∃ t, step s = .next t ∧ t.err = .illegal ∧ t.authOk = false ∧ t.busy = false ∧
        t.overrun = s.overrun ∧ t.zeroized)

/-- 20_memory.md R61, R64: a step stops exactly when the next event of the host is an access past the window (a
fault) or one that is no aligned 32-bit access (a refusal); no command stops it.  That the first is a fault is
the model's choice (log entry 9), the refusal is the spec's (log entry 10). -/
def Obligations.StepStopsOnlyOnBadAccess : Prop :=
  ∀ s : State,
    (∀ f, step s = .fault f ↔ ∃ a rest, completesNow s = false ∧ s.hostQueue = .access a :: rest ∧
      windowBytes ≤ a.offset ∧ f = .outsideWindow a.offset) ∧
    (∀ r, step s = .refused r ↔ ∃ a rest, completesNow s = false ∧ s.hostQueue = .access a :: rest ∧
      a.offset < windowBytes ∧ a.isWord = false ∧ r = .subwordAccess)

/-! ### The permutation engine -/

/-- 10_state.md R20, R21, 41_sponge.md R172, R192, 20_memory.md R65: the flat order of the permutation state, the rate
and the tag as words of it, and the bytes of a buffer. -/
def Obligations.StateViews : Prop :=
  ∀ (p : SparkleState) (v : Words8),
    (∀ i, i < 8 → flatWord p (2 * i) = p.x.get i ∧ flatWord p (2 * i + 1) = p.y.get i) ∧
    (∀ i, i < 4 →
      (rateWords p).get (2 * i) = p.x.get i ∧ (rateWords p).get (2 * i + 1) = p.y.get i ∧
      (capacityWords p).get (2 * i) = p.x.get (4 + i) ∧
      (capacityWords p).get (2 * i + 1) = p.y.get (4 + i)) ∧
    (∀ k j, k < 8 → j < 4 → byteAt v (4 * k + j) = (v.get k).extractLsb' (8 * j) 8)

/-- The values of RCON, which 40_permutation.md R133 lists and marks as general knowledge: they are PRESUMED (log
entry 4).  That they are eight distinct words is the source's. -/
def Obligations.RoundConstantTable : Prop :=
  rcon.get 0 = 0xB7E15162 ∧ rcon.get 1 = 0xBF715880 ∧ rcon.get 2 = 0x38B4DA56 ∧ rcon.get 3 = 0x324E7738 ∧
  rcon.get 4 = 0xBB1185EB ∧ rcon.get 5 = 0x4F7C7B57 ∧ rcon.get 6 = 0xCFBFA1C8 ∧ rcon.get 7 = 0xC2B3293D ∧
  ∀ i j, i < 8 → j < 8 → rcon.get i = rcon.get j → i = j

/-- 40_permutation.md R132, R134: Alzette's four rounds written out, each with its rotation pair and the same
constant, and the rule's example.  `rotateRight` is the library's rotation (00_scope.md R11). -/
def Obligations.AlzetteRounds : Prop :=
  (∀ c x0 y0 : Word,
    let x1 := x0 + y0.rotateRight 31
    let y1 := y0 ^^^ x1.rotateRight 24
    let x2 := (x1 ^^^ c) + y1.rotateRight 17
    let y2 := y1 ^^^ x2.rotateRight 17
    let x3 := (x2 ^^^ c) + y2
    let y3 := y2 ^^^ x3.rotateRight 31
    let x4 := (x3 ^^^ c) + y3.rotateRight 24
    let y4 := y3 ^^^ x4.rotateRight 16
    alzette c (x0, y0) = (x4 ^^^ c, y4)) ∧
  alzette 0xB7E15162 (0x00000000, 0x00000000) = (0x44DD4DE9, 0xE5581F2D)

/-- 40_permutation.md R136, R137, R140, R141: every word after constant injection and after the Alzette layer, the
order of a step's three parts, and Sparkle as the steps 0, 1, ..., steps - 1 in order, for each size. -/
def Obligations.SparkleSteps : Prop :=
  ∀ (nb : Nat) (p : SparkleState), (nb = 4 ∨ nb = 6 ∨ nb = 8) →
    (∀ s : Nat,
      (∀ j, j < 8 → (injectConstants s p).x.get j = p.x.get j) ∧
      (injectConstants s p).y.get 0 = p.y.get 0 ^^^ rcon.get (s % 8) ∧
      (injectConstants s p).y.get 1 = p.y.get 1 ^^^ BitVec.ofNat 32 s ∧
      (∀ j, 2 ≤ j → j < 8 → (injectConstants s p).y.get j = p.y.get j)) ∧
    (∀ j, j < 8 →
      ((alzetteLayer nb p).x.get j, (alzetteLayer nb p).y.get j) =
        if j < nb then alzette (rcon.get j) (p.x.get j, p.y.get j) else (p.x.get j, p.y.get j)) ∧
    (∀ s : Nat, sparkleStep nb s p = linearLayer nb (alzetteLayer nb (injectConstants s p))) ∧
    sparkle nb 0 p = p ∧
    (∀ n : Nat, sparkle nb (n + 1) p = sparkleStep nb n (sparkle nb n p))

/-- 40_permutation.md R131. -/
def Obligations.EllIsLinear : Prop :=
  (∀ t : Word, ell t = rotr (t ^^^ (t <<< 16)) 16) ∧ ell 0 = 0 ∧
  (∀ a b : Word, ell (a ^^^ b) = ell a ^^^ ell b) ∧
  ell 0x00000001 = 0x00010001 ∧ ell 0xFFFFFFFF = 0xFFFF0000

/-- 40_permutation.md R135: the inverse of Alzette undoes it, and Alzette undoes the inverse, for every constant
and every branch. -/
def Obligations.AlzetteInverseUndoes : Prop :=
  ∀ (c : Word) (b : Word × Word), alzetteInv c (alzette c b) = b ∧ alzette c (alzetteInv c b) = b

/-- 40_permutation.md R138, R139: every word after the linear layer, for each size. -/
def Obligations.LinearLayerWords : Prop :=
  ∀ (nb : Nat) (p : SparkleState), (nb = 4 ∨ nb = 6 ∨ nb = 8) →
    let h := nb / 2
    let tx := ell ((List.range h).foldl (fun a i => a ^^^ p.x.get i) 0)
    let ty := ell ((List.range h).foldl (fun a i => a ^^^ p.y.get i) 0)
    let q := linearLayer nb p
    (∀ i, i < h →
      let r := (i + 1) % h
      q.x.get i = p.x.get (h + r) ^^^ p.x.get r ^^^ ty ∧ q.x.get (h + i) = p.x.get i ∧
      q.y.get i = p.y.get (h + r) ^^^ p.y.get r ^^^ tx ∧ q.y.get (h + i) = p.y.get i) ∧
    (∀ j, nb ≤ j → q.x.get j = p.x.get j ∧ q.y.get j = p.y.get j)

/-- 40_permutation.md R130, R141: Sparkle of each size and every step count is a bijection of the permutation
state, and writes nothing above its branches. -/
def Obligations.SparkleIsPermutation : Prop :=
  ∀ nb steps : Nat, (nb = 4 ∨ nb = 6 ∨ nb = 8) →
    Function.Bijective (sparkle nb steps) ∧
    ∀ (p : SparkleState) (j : Nat), nb ≤ j →
      (sparkle nb steps p).x.get j = p.x.get j ∧ (sparkle nb steps p).y.get j = p.y.get j

/-! ### The sponge -/

/-- 41_sponge.md R171: every byte and every word of `pad(B, L)`; a full block is not padded, and the empty one is
0x80 and zeros. -/
def Obligations.PadBytes : Prop :=
  (∀ (b : Words8) (len k : Nat), len ≤ 32 → k < 32 →
    byteAt (pad b len) k = if k < len then byteAt b k else if k = len then 0x80 else 0x00) ∧
  (∀ (b : Words8) (len j : Nat), len ≤ 32 → j < 8 →
    (pad b len).get j = le32 (byteAt (pad b len) (4 * j)) (byteAt (pad b len) (4 * j + 1))
      (byteAt (pad b len) (4 * j + 2)) (byteAt (pad b len) (4 * j + 3))) ∧
  (∀ b : Words8, pad b 32 = b) ∧
  (∀ b : Words8, (pad b 0).get 0 = 0x00000080 ∧ ∀ j, 1 ≤ j → (pad b 0).get j = 0) ∧
  (∀ b : Words8, ((pad b 31).get 7).extractLsb' 24 8 = 0x80)

/-- 41_sponge.md R173, R174: every word after `FeistelSwap` and after `Absorb(V)`, in terms of the state before it;
the capacity is not written. -/
def Obligations.AbsorbWords : Prop :=
  ∀ (v : Words8) (p : SparkleState),
    (∀ i, i < 2 →
      (feistelSwap p).x.get i = p.x.get (i + 2) ∧ (feistelSwap p).y.get i = p.y.get (i + 2) ∧
      (feistelSwap p).x.get (i + 2) = p.x.get (i + 2) ^^^ p.x.get i ∧
      (feistelSwap p).y.get (i + 2) = p.y.get (i + 2) ^^^ p.y.get i) ∧
    (∀ i, i < 4 →
      (absorb v p).x.get i = (feistelSwap p).x.get i ^^^ v.get (2 * i) ^^^ p.x.get (4 + i) ∧
      (absorb v p).y.get i = (feistelSwap p).y.get i ^^^ v.get (2 * i + 1) ^^^ p.y.get (4 + i)) ∧
    (∀ j, 4 ≤ j →
      (feistelSwap p).x.get j = p.x.get j ∧ (feistelSwap p).y.get j = p.y.get j ∧
      (absorb v p).x.get j = p.x.get j ∧ (absorb v p).y.get j = p.y.get j)

/-- 41_sponge.md R178: for every block length, decryption of `C` absorbs what encryption of its output `O` absorbs;
and decrypting what encryption put out gives the block back and leaves the state that encryption leaves. -/
def Obligations.DecryptionUndoesEncryptionOfBlock : Prop :=
  ∀ (b : Words8) (len : Nat) (p : SparkleState), len ≤ 32 →
    rhoWhiDec b len p = absorb (pad (rhoOutput b len p) len) p ∧
    rhoWhiDec b len p = rhoWhiEnc (rhoOutput b len p) len p ∧
    rhoWhiDec (rhoOutput b len p) len p = rhoWhiEnc b len p ∧
    ∀ k, k < 32 → byteAt (rhoOutput (rhoOutput b len p) len p) k = if k < len then byteAt b k else 0

/-- 41_sponge.md R194, 90_conflicts.md C4: the accumulator is zero exactly when all 32 bytes agree. -/
def Obligations.TagDifferenceZeroIffEqual : Prop :=
  ∀ t u : Words8, tagDifference t u = 0 ↔ t = u

/-! ### The commands -/

/-- 42_control.md R233: NOP completes in every phase; it sets ERR and AUTH_OK to 0 and changes nothing else (the
rest of the equation is the end of every completion, R230). -/
def Obligations.NopCompletes : Prop :=
  encode .nop = 0x00000000 ∧
  ∀ s : State, exec .nop s = .next ({ s with err := .ok, authOk := false } : State).retire

/-- 42_control.md R234, R237: CLEAR completes in every phase, zeroizes, and sets OVERRUN to 0. -/
def Obligations.ClearCompletes : Prop :=
  encode .clear = 0x0000000B ∧
  ∀ s : State, ∃ t, exec .clear s = .next t ∧ t.zeroized ∧ t.err = .ok ∧ t.authOk = false ∧
    t.overrun = false ∧ t.busy = false ∧ t.skipEmptyData = s.skipEmptyData ∧ t.hostQueue = s.hostQueue ∧
    t.reads = s.reads

/-- 41_sponge.md R179, R180. -/
def Obligations.InitStartsSession : Prop :=
  ∀ (d : Dir) (s : State), s.phase = .idle → s.keyMask = 0xFF → s.nonceMask = 0xFF →
    ∃ p : SparkleState,
      (∀ k, k < 8 → flatWord p k = s.nonce.get k ∧ flatWord p (8 + k) = s.key.get k) ∧
      exec (.init d) s = .next ({ s with
        perm := sparkle 8 12 p, dir := d, phase := .aadStart, err := .ok, authOk := false } : State).retire

/-- 41_sponge.md R182: a full block is absorbed as it stands in DIN. -/
def Obligations.AadBlockAbsorbs : Prop :=
  ∀ s : State, s.phase = .aadStart ∨ s.phase = .aadMid →
    exec .aadBlock s = .next ({ s with
      perm := sparkle 8 8 (absorb s.din s.perm), phase := .aadMid, err := .ok, authOk := false } : State).retire

/-- 41_sponge.md R170, R171, R183: y[7] alone gets the constant, and the bytes of DIN at and beyond LEN are ignored. -/
def Obligations.AadFinalAbsorbs : Prop :=
  ∀ (len : BitVec 6) (s : State), s.phase = .aadStart ∨ s.phase = .aadMid → 1 ≤ len.toNat → len.toNat ≤ 32 →
    ∃ (v : Words8) (q : SparkleState),
      (∀ k, k < 32 →
        byteAt v k = if k < len.toNat then byteAt s.din k else if k = len.toNat then 0x80 else 0) ∧
      (∀ i, i < 8 → q.x.get i = s.perm.x.get i) ∧ (∀ i, i < 7 → q.y.get i = s.perm.y.get i) ∧
      q.y.get 7 = s.perm.y.get 7 ^^^ (if len.toNat < 32 then 0x10000000 else 0x11000000) ∧
      exec (.aadFinal len) s = .next ({ s with
        perm := sparkle 8 12 (absorb v q)
        phase := .dataStart, err := .ok, authOk := false } : State).retire

/-- 41_sponge.md R176, R186. -/
def Obligations.EncBlockEncrypts : Prop :=
  ∀ s : State, s.dir = .encrypt → s.phase = .aadStart ∨ s.phase = .dataStart ∨ s.phase = .dataMid →
    ∃ o : Words8,
      (∀ k, k < 32 → byteAt o k = byteAt s.din k ^^^ byteAt (rateWords s.perm) k) ∧
      exec .encBlock s = .next ({ s with
        perm := sparkle 8 8 (absorb s.din s.perm), dout := o, phase := .dataMid, err := .ok,
        authOk := false } : State).retire

/-- 41_sponge.md R170, R176, R187: y[7] alone gets the constant, and the output does not depend on it. -/
def Obligations.EncFinalEncrypts : Prop :=
  ∀ (len : BitVec 6) (s : State), s.dir = .encrypt →
    s.phase = .aadStart ∨ s.phase = .dataStart ∨ s.phase = .dataMid →
    len.toNat ≤ 32 → 1 ≤ len.toNat ∨ (s.phase ≠ .dataMid ∧ s.skipEmptyData = false) →
    ∃ (o v : Words8) (q : SparkleState),
      (∀ k, k < 32 →
        byteAt o k = if k < len.toNat then byteAt s.din k ^^^ byteAt (rateWords s.perm) k else 0) ∧
      (∀ k, k < 32 →
        byteAt v k = if k < len.toNat then byteAt s.din k else if k = len.toNat then 0x80 else 0) ∧
      (∀ i, i < 8 → q.x.get i = s.perm.x.get i) ∧ (∀ i, i < 7 → q.y.get i = s.perm.y.get i) ∧
      q.y.get 7 = s.perm.y.get 7 ^^^ (if len.toNat < 32 then 0x12000000 else 0x13000000) ∧
      exec (.encFinal len) s = .next ({ s with
        perm := sparkle 8 12 (absorb v q)
        dout := o, phase := .finalReady, err := .ok, authOk := false } : State).retire

/-- 41_sponge.md R177, R188: the plaintext that is put out is what is absorbed. -/
def Obligations.DecBlockDecrypts : Prop :=
  ∀ s : State, s.dir = .decrypt → s.phase = .aadStart ∨ s.phase = .dataStart ∨ s.phase = .dataMid →
    ∃ o : Words8,
      (∀ k, k < 32 → byteAt o k = byteAt s.din k ^^^ byteAt (rateWords s.perm) k) ∧
      exec .decBlock s = .next ({ s with
        perm := sparkle 8 8 (absorb o s.perm), dout := o, phase := .dataMid, err := .ok,
        authOk := false } : State).retire

/-- 41_sponge.md R170, R177, R189: y[7] alone gets the constant; a partial block absorbs the re-padded plaintext, a
full block the plaintext. -/
def Obligations.DecFinalDecrypts : Prop :=
  ∀ (len : BitVec 6) (s : State), s.dir = .decrypt →
    s.phase = .aadStart ∨ s.phase = .dataStart ∨ s.phase = .dataMid →
    len.toNat ≤ 32 → 1 ≤ len.toNat ∨ (s.phase ≠ .dataMid ∧ s.skipEmptyData = false) →
    ∃ (o v : Words8) (q : SparkleState),
      (∀ k, k < 32 →
        byteAt o k = if k < len.toNat then byteAt s.din k ^^^ byteAt (rateWords s.perm) k else 0) ∧
      (∀ k, k < 32 →
        byteAt v k = if k < len.toNat then byteAt o k else if k = len.toNat then 0x80 else 0) ∧
      (∀ i, i < 8 → q.x.get i = s.perm.x.get i) ∧ (∀ i, i < 7 → q.y.get i = s.perm.y.get i) ∧
      q.y.get 7 = s.perm.y.get 7 ^^^ (if len.toNat < 32 then 0x12000000 else 0x13000000) ∧
      exec (.decFinal len) s = .next ({ s with
        perm := sparkle 8 12 (absorb v q)
        dout := o, phase := .finalReady, err := .ok, authOk := false } : State).retire

/-- 41_sponge.md R191, 42_control.md R240. -/
def Obligations.FinalizeInjectsKey : Prop :=
  ∀ s : State,
    s.phase = .finalReady ∨ (s.skipEmptyData = true ∧ (s.phase = .aadStart ∨ s.phase = .dataStart)) →
    ∃ p : SparkleState,
      (∀ k, k < 8 → flatWord p k = flatWord s.perm k ∧
        flatWord p (8 + k) = flatWord s.perm (8 + k) ^^^ s.key.get k) ∧
      exec .finalize s = .next ({ s with
        perm := sparkle 8 12 p, phase := .done, err := .ok, authOk := false } : State).retire

/-- 41_sponge.md R194: the session ends zeroized in both outcomes, and AUTH_OK or AUTH says whether TAGIN is the
capacity, word for word. -/
def Obligations.VerifyComparesTag : Prop :=
  ∀ s : State, s.phase = .done → s.dir = .decrypt →
    ∃ t, exec .verify s = .next t ∧ t.zeroized ∧ t.busy = false ∧ t.overrun = s.overrun ∧
      t.skipEmptyData = s.skipEmptyData ∧ t.hostQueue = s.hostQueue ∧ t.reads = s.reads ∧
      ((∀ k, k < 8 → s.tagin.get k = flatWord s.perm (8 + k)) → t.err = .ok ∧ t.authOk = true) ∧
      ((∃ k, k < 8 ∧ s.tagin.get k ≠ flatWord s.perm (8 + k)) → t.err = .auth ∧ t.authOk = false)

/-- 40_permutation.md R143: the branches above the size are untouched. -/
def Obligations.PermPermutesState : Prop :=
  ∀ (nb : BitVec 2) (steps : BitVec 8) (s : State), s.phase = .idle → nb ≠ 3 → steps ≠ 0 →
    ∃ p : SparkleState, p = sparkle (4 + 2 * nb.toNat) steps.toNat s.perm ∧
      (∀ j, 4 + 2 * nb.toNat ≤ j → p.x.get j = s.perm.x.get j ∧ p.y.get j = s.perm.y.get j) ∧
      exec (.perm nb steps) s =
        .next ({ s with perm := p, err := .ok, authOk := false } : State).retire

/-! ### Errors -/

/-- 60_exceptions.md R252: every command completes in every state, and reports the one error of highest priority;
so does the completion of every pending word.  A command that fails a check before AUTH does nothing but take
that error. -/
def Obligations.ErrorPriority : Prop :=
  (∀ (i : Instr) (s : State), ∃ t, exec i s = .next t ∧ t.err = commandError s i) ∧
  (∀ s : State, completesNow s = true → ∃ t, step s = .next t ∧
    t.err = match decodeWord s.pending with
      | .error _ => .illegal
      | .ok i => commandError s i) ∧
  (∀ (i : Instr) (s t : State), exec i s = .next t → t.err ≠ .ok → t.err ≠ .auth →
    t = s.raiseError t.err)

/-- 42_control.md R231: a command that completes without an error moves PHASE as the table says, and SEQUENCE is
raised exactly where the table does not accept it. -/
def Obligations.AcceptanceTable : Prop :=
  ∀ (i : Instr) (s t : State), i.wellFormed = true → exec i s = .next t →
    (t.err = .ok → phaseAfter s.skipEmptyData s.dir i s.phase = some t.phase) ∧
    (t.err = .sequence ↔ phaseAfter s.skipEmptyData s.dir i s.phase = none)

/-- 60_exceptions.md R253: what an error does, in a session and in IDLE, at the completion of any pending word. -/
def Obligations.ErrorEffect : Prop :=
  ∀ s t : State, completesNow s = true → step s = .next t → t.err ≠ .ok →
    t.authOk = false ∧ t.overrun = s.overrun ∧ t.busy = false ∧
    (s.phase ≠ .idle → t.zeroized) ∧
    (s.phase = .idle →
      t.err ≠ .auth ∧ t = ({ s with err := t.err, authOk := false } : State).retire)

/-- 10_state.md R35: at every completion BUSY returns to 0, and AUTH_OK is 1 only after a VERIFY that reports no
error, which is one whose tags agree. -/
def Obligations.ResultReport : Prop :=
  ∀ s t : State, completesNow s = true → step s = .next t →
    t.busy = false ∧
    (t.authOk = true ↔ pendingCommand s = some .verify ∧ s.phase = .done ∧ s.dir = .decrypt ∧
      ∀ k, k < 8 → s.tagin.get k = flatWord s.perm (8 + k))

/-! ### STATUS and the port -/

/-- 10_state.md R31, R32, 60_exceptions.md R250: every bit of STATUS, the code of every phase and of every error, and
that a host write to STATUS is ignored. -/
def Obligations.StatusBits : Prop :=
  ∀ s : State,
    (statusWord s).extractLsb' 0 1 = BitVec.ofBool s.busy ∧
    (statusWord s).extractLsb' 1 1 = BitVec.ofBool (decide (s.keyMask = 0xFF)) ∧
    (statusWord s).extractLsb' 2 1 = BitVec.ofBool (decide (s.nonceMask = 0xFF)) ∧
    (statusWord s).extractLsb' 3 1 = BitVec.ofBool s.authOk ∧
    (statusWord s).extractLsb' 4 1 = BitVec.ofBool (decide (s.dir = .decrypt)) ∧
    (statusWord s).extractLsb' 5 1 = BitVec.ofBool s.overrun ∧
    (statusWord s).extractLsb' 6 2 = 0 ∧
    ((statusWord s).extractLsb' 8 3 = match s.phase with
      | .idle => 0 | .aadStart => 1 | .aadMid => 2 | .dataStart => 3 | .dataMid => 4 | .finalReady => 5
      | .done => 6) ∧
    (statusWord s).extractLsb' 8 3 ≠ 7 ∧
    (statusWord s).extractLsb' 11 1 = 0 ∧
    ((statusWord s).extractLsb' 12 4 = match s.err with
      | .ok => 0 | .illegal => 1 | .sequence => 2 | .length => 3 | .steps => 4 | .nokey => 5 | .auth => 6) ∧
    ((statusWord s).extractLsb' 12 4).toNat ≤ 6 ∧
    (statusWord s).extractLsb' 16 16 = 0 ∧
    ∀ v, writeReg s v .status = s

/-- 10_state.md R43, 70_reset_and_hazards.md R280: what reset leaves. -/
def Obligations.ResetValues : Prop :=
  State.reset.zeroized ∧ State.reset.pending = 0 ∧ State.reset.busy = false ∧ State.reset.authOk = false ∧
  State.reset.overrun = false ∧ State.reset.err = .ok ∧ statusWord State.reset = 0

/-- 70_reset_and_hazards.md R280: the reset input gives every piece of the core's state its reset value, from
every state in which no command completes in that step, and a command in progress is abandoned.  That a
completion which is due comes first is the model's choice (log entry 2); the four fields that go on are the
model's own (log entry 12). -/
def Obligations.ResetInputResets : Prop :=
  ∀ (s : State) (rest : List HostEvent), completesNow s = false → s.hostQueue = .reset :: rest →
    step s = .next { State.reset with
      skipEmptyData := s.skipEmptyData, freeCount := s.freeCount, hostQueue := rest, reads := s.reads }

/-- 20_memory.md R66 to R74: what a host read of each register returns and a host write to it does while BUSY = 0.
A read changes nothing in the core, and a write that is ignored changes nothing at all.  `hostQueue` and `reads`
are the model's picture of the host (log entry 3), `latLeft` and `latency` its picture of the latency (log entries 7
and 11). -/
def Obligations.RegisterAccesses : Prop :=
  ∀ (s : State) (rest : List HostEvent) (off : Nat), s.busy = false → s.latLeft = 0 → off % 4 = 0 →
    off < 0x200 →
    (s.hostQueue = .access ⟨off, 4, 1, .read⟩ :: rest →
      ∃ v : Word, step s = .next { s with hostQueue := rest, reads := ⟨off, v⟩ :: s.reads } ∧
        (off = 0x000 → v = 0) ∧ (off = 0x004 → v = statusWord s) ∧
        (0x008 ≤ off → off < 0x040 → v = 0) ∧
        (∀ i, i < 8 → off = 0x040 + 8 * i → v = if s.phase = .idle then s.perm.x.get i else 0) ∧
        (∀ i, i < 8 → off = 0x044 + 8 * i → v = if s.phase = .idle then s.perm.y.get i else 0) ∧
        (0x080 ≤ off → off < 0x0C0 → v = 0) ∧
        (∀ k, k < 8 → off = 0x0C0 + 4 * k → v = s.din.get k) ∧
        (∀ k, k < 8 → off = 0x0E0 + 4 * k → v = s.dout.get k) ∧
        (∀ k, k < 8 → off = 0x100 + 4 * k →
          v = if s.phase = .done ∧ s.dir = .encrypt then flatWord s.perm (8 + k) else 0) ∧
        (0x120 ≤ off → v = 0)) ∧
    (∀ v : Word, s.hostQueue = .access ⟨off, 4, 1, .write v⟩ :: rest →
      ∃ t : State, step s = .next { t with hostQueue := rest } ∧
        (off = 0x000 → t = { s with pending := v, busy := true, latLeft := latency v }) ∧
        ((0x004 ≤ off ∧ off < 0x040) ∨ (0x0E0 ≤ off ∧ off < 0x120) ∨ 0x140 ≤ off → t = s) ∧
        (∀ i, i < 8 → off = 0x040 + 8 * i →
          t = if s.phase = .idle then { s with perm := { s.perm with x := s.perm.x.set i v } } else s) ∧
        (∀ i, i < 8 → off = 0x044 + 8 * i →
          t = if s.phase = .idle then { s with perm := { s.perm with y := s.perm.y.set i v } } else s) ∧
        (∀ k, k < 8 → off = 0x080 + 4 * k →
          t = if s.phase = .idle then
            { s with key := s.key.set k v, keyMask := s.keyMask ||| (1 <<< k) } else s) ∧
        (∀ k, k < 8 → off = 0x0A0 + 4 * k →
          t = if s.phase = .idle then
            { s with nonce := s.nonce.set k v, nonceMask := s.nonceMask ||| (1 <<< k) } else s) ∧
        (∀ k, k < 8 → off = 0x0C0 + 4 * k → t = { s with din := s.din.set k v }) ∧
        (∀ k, k < 8 → off = 0x120 + 4 * k → t = { s with tagin := s.tagin.set k v }))

/-- 20_memory.md R75, R73: accesses while BUSY = 1.  A write is dropped and sets OVERRUN; a read of STATUS is
valid; any other read returns some word.  None of them changes anything else in the core.  One access a cycle is
the model's choice (log entry 2). -/
def Obligations.AccessesWhileBusy : Prop :=
  ∀ (s : State) (rest : List HostEvent) (a : Access), s.busy = true → s.latLeft ≠ 0 →
    s.hostQueue = .access a :: rest → a.isWord = true → a.offset < 0x200 →
    (∀ v, a.op = .write v →
      step s = .next { s with latLeft := s.latLeft - 1, hostQueue := rest, overrun := true }) ∧
    (a.op = .read → a.offset = 0x004 →
      step s = .next { s with
        latLeft := s.latLeft - 1, hostQueue := rest, reads := ⟨0x004, statusWord s⟩ :: s.reads }) ∧
    (a.op = .read → a.offset ≠ 0x004 →
      ∃ w n, step s = .next { s with
        latLeft := s.latLeft - 1, hostQueue := rest, reads := ⟨a.offset, w⟩ :: s.reads, freeCount := n })

/-- 20_memory.md R61: the window is 512 bytes at an aligned base address, which is open (log entry 8). -/
def Obligations.WindowOfPlatformAddresses : Prop :=
  Config.baseAddr % 512 = 0 ∧
  ∀ addr off : Nat, windowOffset addr = some off ↔ addr = Config.baseAddr + off ∧ off < 512

/-! ### The whole machine -/

/-- Every step keeps the invariant: DIR is 0 in IDLE (10_state.md R33), a session has its key and nonce (42_control.md
R238), AUTH_OK is 1 only after a VERIFY that matched (10_state.md R35), DOUT is clear until a data command
(10_state.md R27), and the latency that is left is 0 where no command runs and never above that of the pending
command (the counter is the model's, log entry 11). -/
def Obligations.StepKeepsInvariant : Prop :=
  ∀ s t : State, s.Inv → step s = .next t → t.Inv

/-- 10_state.md R43: the state after reset meets the invariant.  Its clause on the latency holds by the model's own reset
value of the counter (log entry 11), which R43 does not name. -/
def Obligations.ResetMeetsInvariant : Prop := State.reset.Inv

/-- 42_control.md R236, R238: a session begins only when an INIT completes in IDLE with the whole key and nonce
written. -/
def Obligations.SessionBeginsOnlyByInit : Prop :=
  ∀ s t : State, step s = .next t → ¬ s.inSession → t.inSession →
    completesNow s = true ∧ ∃ d, pendingCommand s = some (.init d) ∧ s.keyMask = 0xFF ∧
      s.nonceMask = 0xFF ∧ t.dir = d ∧ t.phase = .aadStart ∧ t.key = s.key ∧ t.nonce = s.nonce

/-- 42_control.md R238, R239: as long as a session lasts, KEY, NONCE, their masks and DIR do not change. -/
def Obligations.SessionKeepsKeyAndDirection : Prop :=
  ∀ s t : State, step s = .next t → s.inSession → t.inSession →
    t.key = s.key ∧ t.keyMask = s.keyMask ∧ t.nonce = s.nonce ∧ t.nonceMask = s.nonceMask ∧ t.dir = s.dir

/-- 42_control.md R236, R237: a session ends only by VERIFY, CLEAR, a command error or reset, and everything of
it is zero afterwards. -/
def Obligations.SessionEndsZeroized : Prop :=
  ∀ s t : State, step s = .next t → s.inSession → ¬ t.inSession →
    t.zeroized ∧
    ((completesNow s = true ∧
        (pendingCommand s = some .verify ∨ pendingCommand s = some .clear ∨ t.err ≠ .ok)) ∨
      (completesNow s = false ∧ ∃ rest, s.hostQueue = .reset :: rest))

/-- 10_state.md R36: a host write while BUSY = 1 sets OVERRUN and is dropped, and nothing else sets it; the
completion of CLEAR and reset clear it, and nothing else does.  That such a write takes one cycle of the latency, and
that a completion which is due comes before it, is the model's choice (log entry 2). -/
def Obligations.OverrunIsSticky : Prop :=
  (∀ (s : State) (a : Access) (v : Word) (rest : List HostEvent), s.busy = true → completesNow s = false →
    s.hostQueue = .access a :: rest → a.op = .write v → a.isWord = true → a.offset < 0x200 →
    step s = .next { s with latLeft := s.latLeft - 1, hostQueue := rest, overrun := true }) ∧
  (∀ s t : State, step s = .next t → s.overrun = false → t.overrun = true →
    completesNow s = false ∧ s.busy = true ∧
      ∃ a v rest, s.hostQueue = .access a :: rest ∧ a.op = .write v) ∧
  (∀ s t : State, step s = .next t →
    (completesNow s = true ∧ pendingCommand s = some .clear) ∨
      (completesNow s = false ∧ ∃ rest, s.hostQueue = .reset :: rest) →
    t.overrun = false) ∧
  (∀ s t : State, step s = .next t → s.overrun = true → t.overrun = false →
    (completesNow s = true ∧ pendingCommand s = some .clear) ∨
      (completesNow s = false ∧ ∃ rest, s.hostQueue = .reset :: rest))

/-- 20_memory.md R82: no register shows the key, the nonce, TAGIN, or in a session the permutation state, but for
the tag of an encrypt session. -/
def Obligations.SecretsAreNotReadable : Prop :=
  ∀ (s t : State) (r : Reg), agreeOnVisible s t → readReg s r = readReg t r

/-- 41_sponge.md R195, 60_exceptions.md R266: a command's effect on the control state does not depend on the data;
a VERIFY's depends on it in ERR and AUTH_OK alone.  PENDING, undefined after a completion (log entry 6), is exempt. -/
def Obligations.ControlIsIndependentOfData : Prop :=
  ∀ (i : Instr) (s t s' t' : State), agreeOnControl s t → exec i s = .next s' → exec i t = .next t' →
    (i ≠ .verify → agreeOnControl s' t') ∧
    (i = .verify → agreeOnControl { s' with err := t'.err, authOk := t'.authOk } t')

/-- 70_reset_and_hazards.md R292, R295, 20_memory.md R75: a started command completes when its latency has
passed, whatever accesses the host makes in the meantime, and they do not change its result.  How many steps
that takes is the model's choice (log entry 2). -/
def Obligations.StartedCommandCompletes : Prop :=
  ∀ (s : State) (i : Instr), s.busy = true → decodeWord s.pending = .ok i →
    (∀ e ∈ s.hostQueue, e.wellFormed = true ∧ e ≠ .reset) →
    ∃ u v, Host.Core.run Sys2Proof.core (s.latLeft + 1) s = .next u ∧ exec i s = .next v ∧
      u = { v with
        overrun := u.overrun, hostQueue := u.hostQueue, reads := u.reads, freeCount := u.freeCount,
        pending := u.pending }

/-- 30_encoding.md R104, 70_reset_and_hazards.md R284: `do C` ends, with the result of the command, and the last
word the poll reads is the STATUS after it.  The poll as one event is the model's choice (log entry 3), and so
is which free word PENDING holds at the end, the same as after `exec` (log entry 6). -/
def Obligations.DoCommandEnds : Prop :=
  ∀ (s : State) (i : Instr) (rest : List HostEvent), i.wellFormed = true → s.busy = false → s.latLeft = 0 →
    s.hostQueue = doEvents i ++ rest →
    ∃ n u t more, Host.Core.run Sys2Proof.core n s = .next u ∧ exec i s = .next t ∧
      u = { t with hostQueue := rest, reads := ⟨0x004, statusWord t⟩ :: more ++ s.reads } ∧
      ∀ r ∈ more, r.offset = 0x004 ∧ r.value.extractLsb' 0 1 = 1

/-! ### Whole calls -/

/-- 41_sponge.md R181: of the sequences of AAD commands that a session accepts without an error, those that close
the AAD are exactly BLOCK^k FINAL(L) with L in 1..32. -/
def Obligations.AadSequencesAreChunkings : Prop :=
  ∀ (s : State) (cs : List Instr), s.phase = .aadStart →
    (∀ c ∈ cs, c = .aadBlock ∨ ∃ len, c = .aadFinal len) →
    ((∃ t, acceptAll cs s = some t ∧ t.phase = .dataStart) ↔
      ∃ (k : Nat) (len : BitVec 6), 1 ≤ len.toNat ∧ len.toNat ≤ 32 ∧
        cs = List.replicate k .aadBlock ++ [.aadFinal len])

/-- 41_sponge.md R181, R190, 42_control.md R232, R239, R240: of the sequences of data commands that a session with no
data yet accepts without an error, those that end the data are exactly BLOCK^k FINAL(L) in the session's direction,
with L in 1..32, or L = 0 where k = 0 and SKIP_EMPTY_DATA is false. -/
def Obligations.DataSequencesAreChunkings : Prop :=
  ∀ (s : State) (cs : List Instr), s.phase = .aadStart ∨ s.phase = .dataStart →
    (∀ c ∈ cs, c = .encBlock ∨ c = .decBlock ∨ ∃ len, c = .encFinal len ∨ c = .decFinal len) →
    ((∃ t, acceptAll cs s = some t ∧ t.phase = .finalReady) ↔
      ∃ (k : Nat) (len : BitVec 6), len.toNat ≤ 32 ∧
        (1 ≤ len.toNat ∨ (k = 0 ∧ s.skipEmptyData = false)) ∧
        cs = match s.dir with
          | .encrypt => List.replicate k .encBlock ++ [.encFinal len]
          | .decrypt => List.replicate k .decBlock ++ [.decFinal len])

/-- 41_sponge.md R181: the blocks of a byte string give it back, every block before the last has 32 bytes, and
the last has 1 to 32, or 0 where the string is empty. -/
def Obligations.ChunksOfString : Prop :=
  ∀ d : List Byte, ∃ (front : List (List Byte)) (last : List Byte),
    chunks d = front ++ [last] ∧ front.flatten ++ last = d ∧ (∀ b ∈ front, b.length = 32) ∧
    last.length ≤ 32 ∧ (last = [] → d = [])

/-- 41_sponge.md R198, 00_scope.md R7: decryption of an encryption gives the message back, and the ciphertext has
the message's length, for every key, nonce, AAD and message and both settings of SKIP_EMPTY_DATA. -/
def Obligations.RoundTrip : Prop :=
  ∀ (skip : Bool) (k n a p : List Byte),
    aeadDecrypt skip k n a (aeadEncrypt skip k n a p).1 (aeadEncrypt skip k n a p).2 = some p ∧
    (aeadEncrypt skip k n a p).1.length = p.length ∧ (aeadEncrypt skip k n a p).2.length = 32

/-- 41_sponge.md R196: the commands of `ENCRYPT`, given through the port to an idle core, compute
`aeadEncrypt`, the ciphertext has the message's length, and CLEAR leaves the core zeroized.  `runEncrypt` lets each
command's latency pass at once (log entry 17; `DoCommandEnds` is about the cycles). -/
def Obligations.EncryptCommandsComputeEncrypt : Prop :=
  ∀ (s : State) (k n a p : List Byte), s.phase = .idle → s.busy = false →
    ∃ t, runEncrypt k n a p s =
      ((aeadEncrypt s.skipEmptyData k n a p).1, (aeadEncrypt s.skipEmptyData k n a p).2, t) ∧
      (runEncrypt k n a p s).1.length = p.length ∧ t.zeroized ∧ t.err = .ok ∧ t.busy = false

/-- 41_sponge.md R197, 70_reset_and_hazards.md R291: the commands of `DECRYPT`, given through the port to an idle
core, compute `aeadDecrypt`, and the core is zeroized afterwards.  `runDecrypt` lets each command's latency pass at
once (log entry 17). -/
def Obligations.DecryptCommandsComputeDecrypt : Prop :=
  ∀ (s : State) (k n a c t : List Byte), s.phase = .idle → s.busy = false →
    decryptResult (runDecrypt k n a c t s) = aeadDecrypt s.skipEmptyData k n a c t ∧
    (runDecrypt k n a c t s).2.zeroized ∧ (runDecrypt k n a c t s).2.busy = false

/-- 41_sponge.md R199: the number of commands of an encryption that ends with CLEAR and of a decryption that ends
with VERIFY. -/
def Obligations.CommandCountOfCalls : Prop :=
  ∀ k n a p t : List Byte,
    commandCount (encryptEvents false k n a p) =
      (a.length + 31) / 32 + max 1 ((p.length + 31) / 32) + 3 ∧
    commandCount (decryptEvents false k n a p t) =
      (a.length + 31) / 32 + max 1 ((p.length + 31) / 32) + 3
end

