-- ==== Sys2Proof/Laws/State.lean ====
section
/-!
SUPPORT. What each named update of the state does to each field: one lemma per field per update, true by
definition.
-/

namespace Sys2Proof.Machine

/-! ### start: starting a command (42_control.md R230) -/

@[simp] theorem State.start_perm (s : State) (c : Word) : (s.start c).perm = s.perm := rfl
@[simp] theorem State.start_key (s : State) (c : Word) : (s.start c).key = s.key := rfl
@[simp] theorem State.start_keyMask (s : State) (c : Word) : (s.start c).keyMask = s.keyMask := rfl
@[simp] theorem State.start_nonce (s : State) (c : Word) : (s.start c).nonce = s.nonce := rfl
@[simp] theorem State.start_nonceMask (s : State) (c : Word) : (s.start c).nonceMask = s.nonceMask := rfl
@[simp] theorem State.start_din (s : State) (c : Word) : (s.start c).din = s.din := rfl
@[simp] theorem State.start_dout (s : State) (c : Word) : (s.start c).dout = s.dout := rfl
@[simp] theorem State.start_tagin (s : State) (c : Word) : (s.start c).tagin = s.tagin := rfl
@[simp] theorem State.start_pending (s : State) (c : Word) : (s.start c).pending = c := rfl
@[simp] theorem State.start_busy (s : State) (c : Word) : (s.start c).busy = true := rfl
@[simp] theorem State.start_authOk (s : State) (c : Word) : (s.start c).authOk = s.authOk := rfl
@[simp] theorem State.start_dir (s : State) (c : Word) : (s.start c).dir = s.dir := rfl
@[simp] theorem State.start_overrun (s : State) (c : Word) : (s.start c).overrun = s.overrun := rfl
@[simp] theorem State.start_phase (s : State) (c : Word) : (s.start c).phase = s.phase := rfl
@[simp] theorem State.start_err (s : State) (c : Word) : (s.start c).err = s.err := rfl
@[simp] theorem State.start_latLeft (s : State) (c : Word) : (s.start c).latLeft = latency c := rfl
@[simp] theorem State.start_skipEmptyData (s : State) (c : Word) : (s.start c).skipEmptyData = s.skipEmptyData :=
  rfl
@[simp] theorem State.start_freeCount (s : State) (c : Word) : (s.start c).freeCount = s.freeCount := rfl
@[simp] theorem State.start_hostQueue (s : State) (c : Word) : (s.start c).hostQueue = s.hostQueue := rfl
@[simp] theorem State.start_reads (s : State) (c : Word) : (s.start c).reads = s.reads := rfl

/-! ### retire: the end of a completion (42_control.md R230) -/

@[simp] theorem State.retire_perm (s : State) : s.retire.perm = s.perm := rfl
@[simp] theorem State.retire_key (s : State) : s.retire.key = s.key := rfl
@[simp] theorem State.retire_keyMask (s : State) : s.retire.keyMask = s.keyMask := rfl
@[simp] theorem State.retire_nonce (s : State) : s.retire.nonce = s.nonce := rfl
@[simp] theorem State.retire_nonceMask (s : State) : s.retire.nonceMask = s.nonceMask := rfl
@[simp] theorem State.retire_din (s : State) : s.retire.din = s.din := rfl
@[simp] theorem State.retire_dout (s : State) : s.retire.dout = s.dout := rfl
@[simp] theorem State.retire_tagin (s : State) : s.retire.tagin = s.tagin := rfl
@[simp] theorem State.retire_pending (s : State) : s.retire.pending = Config.freeWord s.freeCount := rfl
@[simp] theorem State.retire_busy (s : State) : s.retire.busy = false := rfl
@[simp] theorem State.retire_authOk (s : State) : s.retire.authOk = s.authOk := rfl
@[simp] theorem State.retire_dir (s : State) : s.retire.dir = s.dir := rfl
@[simp] theorem State.retire_overrun (s : State) : s.retire.overrun = s.overrun := rfl
@[simp] theorem State.retire_phase (s : State) : s.retire.phase = s.phase := rfl
@[simp] theorem State.retire_err (s : State) : s.retire.err = s.err := rfl
@[simp] theorem State.retire_latLeft (s : State) : s.retire.latLeft = 0 := rfl
@[simp] theorem State.retire_skipEmptyData (s : State) : s.retire.skipEmptyData = s.skipEmptyData := rfl
@[simp] theorem State.retire_freeCount (s : State) : s.retire.freeCount = s.freeCount + 1 := rfl
@[simp] theorem State.retire_hostQueue (s : State) : s.retire.hostQueue = s.hostQueue := rfl
@[simp] theorem State.retire_reads (s : State) : s.retire.reads = s.reads := rfl

/-! ### zeroize: `zeroize` (42_control.md R237) -/

@[simp] theorem State.zeroize_perm (s : State) : s.zeroize.perm = SparkleState.zero := rfl
@[simp] theorem State.zeroize_key (s : State) : s.zeroize.key = Words8.zero := rfl
@[simp] theorem State.zeroize_keyMask (s : State) : s.zeroize.keyMask = 0 := rfl
@[simp] theorem State.zeroize_nonce (s : State) : s.zeroize.nonce = Words8.zero := rfl
@[simp] theorem State.zeroize_nonceMask (s : State) : s.zeroize.nonceMask = 0 := rfl
@[simp] theorem State.zeroize_din (s : State) : s.zeroize.din = Words8.zero := rfl
@[simp] theorem State.zeroize_dout (s : State) : s.zeroize.dout = Words8.zero := rfl
@[simp] theorem State.zeroize_tagin (s : State) : s.zeroize.tagin = Words8.zero := rfl
@[simp] theorem State.zeroize_pending (s : State) : s.zeroize.pending = s.pending := rfl
@[simp] theorem State.zeroize_busy (s : State) : s.zeroize.busy = s.busy := rfl
@[simp] theorem State.zeroize_authOk (s : State) : s.zeroize.authOk = s.authOk := rfl
@[simp] theorem State.zeroize_dir (s : State) : s.zeroize.dir = .encrypt := rfl
@[simp] theorem State.zeroize_overrun (s : State) : s.zeroize.overrun = s.overrun := rfl
@[simp] theorem State.zeroize_phase (s : State) : s.zeroize.phase = .idle := rfl
@[simp] theorem State.zeroize_err (s : State) : s.zeroize.err = s.err := rfl
@[simp] theorem State.zeroize_latLeft (s : State) : s.zeroize.latLeft = s.latLeft := rfl
@[simp] theorem State.zeroize_skipEmptyData (s : State) : s.zeroize.skipEmptyData = s.skipEmptyData := rfl
@[simp] theorem State.zeroize_freeCount (s : State) : s.zeroize.freeCount = s.freeCount := rfl
@[simp] theorem State.zeroize_hostQueue (s : State) : s.zeroize.hostQueue = s.hostQueue := rfl
@[simp] theorem State.zeroize_reads (s : State) : s.zeroize.reads = s.reads := rfl

/-! ### clearAuth: AUTH_OK <- 0 before a body (42_control.md R230) -/

@[simp] theorem State.clearAuth_perm (s : State) : s.clearAuth.perm = s.perm := rfl
@[simp] theorem State.clearAuth_key (s : State) : s.clearAuth.key = s.key := rfl
@[simp] theorem State.clearAuth_keyMask (s : State) : s.clearAuth.keyMask = s.keyMask := rfl
@[simp] theorem State.clearAuth_nonce (s : State) : s.clearAuth.nonce = s.nonce := rfl
@[simp] theorem State.clearAuth_nonceMask (s : State) : s.clearAuth.nonceMask = s.nonceMask := rfl
@[simp] theorem State.clearAuth_din (s : State) : s.clearAuth.din = s.din := rfl
@[simp] theorem State.clearAuth_dout (s : State) : s.clearAuth.dout = s.dout := rfl
@[simp] theorem State.clearAuth_tagin (s : State) : s.clearAuth.tagin = s.tagin := rfl
@[simp] theorem State.clearAuth_pending (s : State) : s.clearAuth.pending = s.pending := rfl
@[simp] theorem State.clearAuth_busy (s : State) : s.clearAuth.busy = s.busy := rfl
@[simp] theorem State.clearAuth_authOk (s : State) : s.clearAuth.authOk = false := rfl
@[simp] theorem State.clearAuth_dir (s : State) : s.clearAuth.dir = s.dir := rfl
@[simp] theorem State.clearAuth_overrun (s : State) : s.clearAuth.overrun = s.overrun := rfl
@[simp] theorem State.clearAuth_phase (s : State) : s.clearAuth.phase = s.phase := rfl
@[simp] theorem State.clearAuth_err (s : State) : s.clearAuth.err = s.err := rfl
@[simp] theorem State.clearAuth_latLeft (s : State) : s.clearAuth.latLeft = s.latLeft := rfl
@[simp] theorem State.clearAuth_skipEmptyData (s : State) : s.clearAuth.skipEmptyData = s.skipEmptyData := rfl
@[simp] theorem State.clearAuth_freeCount (s : State) : s.clearAuth.freeCount = s.freeCount := rfl
@[simp] theorem State.clearAuth_hostQueue (s : State) : s.clearAuth.hostQueue = s.hostQueue := rfl
@[simp] theorem State.clearAuth_reads (s : State) : s.clearAuth.reads = s.reads := rfl

/-! ### succeed: a completion without an error (42_control.md R230) -/

@[simp] theorem State.succeed_perm (s : State) : s.succeed.perm = s.perm := rfl
@[simp] theorem State.succeed_key (s : State) : s.succeed.key = s.key := rfl
@[simp] theorem State.succeed_keyMask (s : State) : s.succeed.keyMask = s.keyMask := rfl
@[simp] theorem State.succeed_nonce (s : State) : s.succeed.nonce = s.nonce := rfl
@[simp] theorem State.succeed_nonceMask (s : State) : s.succeed.nonceMask = s.nonceMask := rfl
@[simp] theorem State.succeed_din (s : State) : s.succeed.din = s.din := rfl
@[simp] theorem State.succeed_dout (s : State) : s.succeed.dout = s.dout := rfl
@[simp] theorem State.succeed_tagin (s : State) : s.succeed.tagin = s.tagin := rfl
@[simp] theorem State.succeed_pending (s : State) : s.succeed.pending = Config.freeWord s.freeCount := rfl
@[simp] theorem State.succeed_busy (s : State) : s.succeed.busy = false := rfl
@[simp] theorem State.succeed_authOk (s : State) : s.succeed.authOk = s.authOk := rfl
@[simp] theorem State.succeed_dir (s : State) : s.succeed.dir = s.dir := rfl
@[simp] theorem State.succeed_overrun (s : State) : s.succeed.overrun = s.overrun := rfl
@[simp] theorem State.succeed_phase (s : State) : s.succeed.phase = s.phase := rfl
@[simp] theorem State.succeed_err (s : State) : s.succeed.err = .ok := rfl
@[simp] theorem State.succeed_latLeft (s : State) : s.succeed.latLeft = 0 := rfl
@[simp] theorem State.succeed_skipEmptyData (s : State) : s.succeed.skipEmptyData = s.skipEmptyData := rfl
@[simp] theorem State.succeed_freeCount (s : State) : s.succeed.freeCount = s.freeCount + 1 := rfl
@[simp] theorem State.succeed_hostQueue (s : State) : s.succeed.hostQueue = s.hostQueue := rfl
@[simp] theorem State.succeed_reads (s : State) : s.succeed.reads = s.reads := rfl

/-! ### advance: a result in the permutation state with a new phase -/

@[simp] theorem State.advance_perm (s : State) (p : SparkleState) (q : Phase) : (s.advance p q).perm = p :=
  rfl
@[simp] theorem State.advance_key (s : State) (p : SparkleState) (q : Phase) : (s.advance p q).key = s.key :=
  rfl
@[simp] theorem State.advance_keyMask (s : State) (p : SparkleState) (q : Phase) : (s.advance p q).keyMask = s.keyMask :=
  rfl
@[simp] theorem State.advance_nonce (s : State) (p : SparkleState) (q : Phase) : (s.advance p q).nonce = s.nonce :=
  rfl
@[simp] theorem State.advance_nonceMask (s : State) (p : SparkleState) (q : Phase) : (s.advance p q).nonceMask = s.nonceMask :=
  rfl
@[simp] theorem State.advance_din (s : State) (p : SparkleState) (q : Phase) : (s.advance p q).din = s.din :=
  rfl
@[simp] theorem State.advance_dout (s : State) (p : SparkleState) (q : Phase) : (s.advance p q).dout = s.dout :=
  rfl
@[simp] theorem State.advance_tagin (s : State) (p : SparkleState) (q : Phase) : (s.advance p q).tagin = s.tagin :=
  rfl
@[simp] theorem State.advance_pending (s : State) (p : SparkleState) (q : Phase) : (s.advance p q).pending = s.pending :=
  rfl
@[simp] theorem State.advance_busy (s : State) (p : SparkleState) (q : Phase) : (s.advance p q).busy = s.busy :=
  rfl
@[simp] theorem State.advance_authOk (s : State) (p : SparkleState) (q : Phase) : (s.advance p q).authOk = s.authOk :=
  rfl
@[simp] theorem State.advance_dir (s : State) (p : SparkleState) (q : Phase) : (s.advance p q).dir = s.dir :=
  rfl
@[simp] theorem State.advance_overrun (s : State) (p : SparkleState) (q : Phase) : (s.advance p q).overrun = s.overrun :=
  rfl
@[simp] theorem State.advance_phase (s : State) (p : SparkleState) (q : Phase) : (s.advance p q).phase = q :=
  rfl
@[simp] theorem State.advance_err (s : State) (p : SparkleState) (q : Phase) : (s.advance p q).err = s.err :=
  rfl
@[simp] theorem State.advance_latLeft (s : State) (p : SparkleState) (q : Phase) : (s.advance p q).latLeft = s.latLeft :=
  rfl
@[simp] theorem State.advance_skipEmptyData (s : State) (p : SparkleState) (q : Phase) : (s.advance p q).skipEmptyData = s.skipEmptyData :=
  rfl
@[simp] theorem State.advance_freeCount (s : State) (p : SparkleState) (q : Phase) : (s.advance p q).freeCount = s.freeCount :=
  rfl
@[simp] theorem State.advance_hostQueue (s : State) (p : SparkleState) (q : Phase) : (s.advance p q).hostQueue = s.hostQueue :=
  rfl
@[simp] theorem State.advance_reads (s : State) (p : SparkleState) (q : Phase) : (s.advance p q).reads = s.reads :=
  rfl

/-! ### setDout: a data command's output (10_state.md R27) -/

@[simp] theorem State.setDout_perm (s : State) (o : Words8) : (s.setDout o).perm = s.perm := rfl
@[simp] theorem State.setDout_key (s : State) (o : Words8) : (s.setDout o).key = s.key := rfl
@[simp] theorem State.setDout_keyMask (s : State) (o : Words8) : (s.setDout o).keyMask = s.keyMask := rfl
@[simp] theorem State.setDout_nonce (s : State) (o : Words8) : (s.setDout o).nonce = s.nonce := rfl
@[simp] theorem State.setDout_nonceMask (s : State) (o : Words8) : (s.setDout o).nonceMask = s.nonceMask :=
  rfl
@[simp] theorem State.setDout_din (s : State) (o : Words8) : (s.setDout o).din = s.din := rfl
@[simp] theorem State.setDout_dout (s : State) (o : Words8) : (s.setDout o).dout = o := rfl
@[simp] theorem State.setDout_tagin (s : State) (o : Words8) : (s.setDout o).tagin = s.tagin := rfl
@[simp] theorem State.setDout_pending (s : State) (o : Words8) : (s.setDout o).pending = s.pending := rfl
@[simp] theorem State.setDout_busy (s : State) (o : Words8) : (s.setDout o).busy = s.busy := rfl
@[simp] theorem State.setDout_authOk (s : State) (o : Words8) : (s.setDout o).authOk = s.authOk := rfl
@[simp] theorem State.setDout_dir (s : State) (o : Words8) : (s.setDout o).dir = s.dir := rfl
@[simp] theorem State.setDout_overrun (s : State) (o : Words8) : (s.setDout o).overrun = s.overrun := rfl
@[simp] theorem State.setDout_phase (s : State) (o : Words8) : (s.setDout o).phase = s.phase := rfl
@[simp] theorem State.setDout_err (s : State) (o : Words8) : (s.setDout o).err = s.err := rfl
@[simp] theorem State.setDout_latLeft (s : State) (o : Words8) : (s.setDout o).latLeft = s.latLeft := rfl
@[simp] theorem State.setDout_skipEmptyData (s : State) (o : Words8) : (s.setDout o).skipEmptyData = s.skipEmptyData :=
  rfl
@[simp] theorem State.setDout_freeCount (s : State) (o : Words8) : (s.setDout o).freeCount = s.freeCount :=
  rfl
@[simp] theorem State.setDout_hostQueue (s : State) (o : Words8) : (s.setDout o).hostQueue = s.hostQueue :=
  rfl
@[simp] theorem State.setDout_reads (s : State) (o : Words8) : (s.setDout o).reads = s.reads := rfl

/-! ### setDir: INIT's direction (42_control.md R239) -/

@[simp] theorem State.setDir_perm (s : State) (d : Dir) : (s.setDir d).perm = s.perm := rfl
@[simp] theorem State.setDir_key (s : State) (d : Dir) : (s.setDir d).key = s.key := rfl
@[simp] theorem State.setDir_keyMask (s : State) (d : Dir) : (s.setDir d).keyMask = s.keyMask := rfl
@[simp] theorem State.setDir_nonce (s : State) (d : Dir) : (s.setDir d).nonce = s.nonce := rfl
@[simp] theorem State.setDir_nonceMask (s : State) (d : Dir) : (s.setDir d).nonceMask = s.nonceMask := rfl
@[simp] theorem State.setDir_din (s : State) (d : Dir) : (s.setDir d).din = s.din := rfl
@[simp] theorem State.setDir_dout (s : State) (d : Dir) : (s.setDir d).dout = s.dout := rfl
@[simp] theorem State.setDir_tagin (s : State) (d : Dir) : (s.setDir d).tagin = s.tagin := rfl
@[simp] theorem State.setDir_pending (s : State) (d : Dir) : (s.setDir d).pending = s.pending := rfl
@[simp] theorem State.setDir_busy (s : State) (d : Dir) : (s.setDir d).busy = s.busy := rfl
@[simp] theorem State.setDir_authOk (s : State) (d : Dir) : (s.setDir d).authOk = s.authOk := rfl
@[simp] theorem State.setDir_dir (s : State) (d : Dir) : (s.setDir d).dir = d := rfl
@[simp] theorem State.setDir_overrun (s : State) (d : Dir) : (s.setDir d).overrun = s.overrun := rfl
@[simp] theorem State.setDir_phase (s : State) (d : Dir) : (s.setDir d).phase = s.phase := rfl
@[simp] theorem State.setDir_err (s : State) (d : Dir) : (s.setDir d).err = s.err := rfl
@[simp] theorem State.setDir_latLeft (s : State) (d : Dir) : (s.setDir d).latLeft = s.latLeft := rfl
@[simp] theorem State.setDir_skipEmptyData (s : State) (d : Dir) : (s.setDir d).skipEmptyData = s.skipEmptyData :=
  rfl
@[simp] theorem State.setDir_freeCount (s : State) (d : Dir) : (s.setDir d).freeCount = s.freeCount := rfl
@[simp] theorem State.setDir_hostQueue (s : State) (d : Dir) : (s.setDir d).hostQueue = s.hostQueue := rfl
@[simp] theorem State.setDir_reads (s : State) (d : Dir) : (s.setDir d).reads = s.reads := rfl

/-! ### setAuth: a matching VERIFY (41_sponge.md R194) -/

@[simp] theorem State.setAuth_perm (s : State) : s.setAuth.perm = s.perm := rfl
@[simp] theorem State.setAuth_key (s : State) : s.setAuth.key = s.key := rfl
@[simp] theorem State.setAuth_keyMask (s : State) : s.setAuth.keyMask = s.keyMask := rfl
@[simp] theorem State.setAuth_nonce (s : State) : s.setAuth.nonce = s.nonce := rfl
@[simp] theorem State.setAuth_nonceMask (s : State) : s.setAuth.nonceMask = s.nonceMask := rfl
@[simp] theorem State.setAuth_din (s : State) : s.setAuth.din = s.din := rfl
@[simp] theorem State.setAuth_dout (s : State) : s.setAuth.dout = s.dout := rfl
@[simp] theorem State.setAuth_tagin (s : State) : s.setAuth.tagin = s.tagin := rfl
@[simp] theorem State.setAuth_pending (s : State) : s.setAuth.pending = s.pending := rfl
@[simp] theorem State.setAuth_busy (s : State) : s.setAuth.busy = s.busy := rfl
@[simp] theorem State.setAuth_authOk (s : State) : s.setAuth.authOk = true := rfl
@[simp] theorem State.setAuth_dir (s : State) : s.setAuth.dir = s.dir := rfl
@[simp] theorem State.setAuth_overrun (s : State) : s.setAuth.overrun = s.overrun := rfl
@[simp] theorem State.setAuth_phase (s : State) : s.setAuth.phase = s.phase := rfl
@[simp] theorem State.setAuth_err (s : State) : s.setAuth.err = s.err := rfl
@[simp] theorem State.setAuth_latLeft (s : State) : s.setAuth.latLeft = s.latLeft := rfl
@[simp] theorem State.setAuth_skipEmptyData (s : State) : s.setAuth.skipEmptyData = s.skipEmptyData := rfl
@[simp] theorem State.setAuth_freeCount (s : State) : s.setAuth.freeCount = s.freeCount := rfl
@[simp] theorem State.setAuth_hostQueue (s : State) : s.setAuth.hostQueue = s.hostQueue := rfl
@[simp] theorem State.setAuth_reads (s : State) : s.setAuth.reads = s.reads := rfl

/-! ### clearOverrun: CLEAR's OVERRUN <- 0 (42_control.md R234) -/

@[simp] theorem State.clearOverrun_perm (s : State) : s.clearOverrun.perm = s.perm := rfl
@[simp] theorem State.clearOverrun_key (s : State) : s.clearOverrun.key = s.key := rfl
@[simp] theorem State.clearOverrun_keyMask (s : State) : s.clearOverrun.keyMask = s.keyMask := rfl
@[simp] theorem State.clearOverrun_nonce (s : State) : s.clearOverrun.nonce = s.nonce := rfl
@[simp] theorem State.clearOverrun_nonceMask (s : State) : s.clearOverrun.nonceMask = s.nonceMask := rfl
@[simp] theorem State.clearOverrun_din (s : State) : s.clearOverrun.din = s.din := rfl
@[simp] theorem State.clearOverrun_dout (s : State) : s.clearOverrun.dout = s.dout := rfl
@[simp] theorem State.clearOverrun_tagin (s : State) : s.clearOverrun.tagin = s.tagin := rfl
@[simp] theorem State.clearOverrun_pending (s : State) : s.clearOverrun.pending = s.pending := rfl
@[simp] theorem State.clearOverrun_busy (s : State) : s.clearOverrun.busy = s.busy := rfl
@[simp] theorem State.clearOverrun_authOk (s : State) : s.clearOverrun.authOk = s.authOk := rfl
@[simp] theorem State.clearOverrun_dir (s : State) : s.clearOverrun.dir = s.dir := rfl
@[simp] theorem State.clearOverrun_overrun (s : State) : s.clearOverrun.overrun = false := rfl
@[simp] theorem State.clearOverrun_phase (s : State) : s.clearOverrun.phase = s.phase := rfl
@[simp] theorem State.clearOverrun_err (s : State) : s.clearOverrun.err = s.err := rfl
@[simp] theorem State.clearOverrun_latLeft (s : State) : s.clearOverrun.latLeft = s.latLeft := rfl
@[simp] theorem State.clearOverrun_skipEmptyData (s : State) : s.clearOverrun.skipEmptyData = s.skipEmptyData :=
  rfl
@[simp] theorem State.clearOverrun_freeCount (s : State) : s.clearOverrun.freeCount = s.freeCount := rfl
@[simp] theorem State.clearOverrun_hostQueue (s : State) : s.clearOverrun.hostQueue = s.hostQueue := rfl
@[simp] theorem State.clearOverrun_reads (s : State) : s.clearOverrun.reads = s.reads := rfl

/-! ### tick: a cycle of latency (10_state.md R41) -/

@[simp] theorem State.tick_perm (s : State) : s.tick.perm = s.perm := rfl
@[simp] theorem State.tick_key (s : State) : s.tick.key = s.key := rfl
@[simp] theorem State.tick_keyMask (s : State) : s.tick.keyMask = s.keyMask := rfl
@[simp] theorem State.tick_nonce (s : State) : s.tick.nonce = s.nonce := rfl
@[simp] theorem State.tick_nonceMask (s : State) : s.tick.nonceMask = s.nonceMask := rfl
@[simp] theorem State.tick_din (s : State) : s.tick.din = s.din := rfl
@[simp] theorem State.tick_dout (s : State) : s.tick.dout = s.dout := rfl
@[simp] theorem State.tick_tagin (s : State) : s.tick.tagin = s.tagin := rfl
@[simp] theorem State.tick_pending (s : State) : s.tick.pending = s.pending := rfl
@[simp] theorem State.tick_busy (s : State) : s.tick.busy = s.busy := rfl
@[simp] theorem State.tick_authOk (s : State) : s.tick.authOk = s.authOk := rfl
@[simp] theorem State.tick_dir (s : State) : s.tick.dir = s.dir := rfl
@[simp] theorem State.tick_overrun (s : State) : s.tick.overrun = s.overrun := rfl
@[simp] theorem State.tick_phase (s : State) : s.tick.phase = s.phase := rfl
@[simp] theorem State.tick_err (s : State) : s.tick.err = s.err := rfl
@[simp] theorem State.tick_latLeft (s : State) : s.tick.latLeft = s.latLeft - 1 := rfl
@[simp] theorem State.tick_skipEmptyData (s : State) : s.tick.skipEmptyData = s.skipEmptyData := rfl
@[simp] theorem State.tick_freeCount (s : State) : s.tick.freeCount = s.freeCount := rfl
@[simp] theorem State.tick_hostQueue (s : State) : s.tick.hostQueue = s.hostQueue := rfl
@[simp] theorem State.tick_reads (s : State) : s.tick.reads = s.reads := rfl

/-! ### withPending: a command about to complete -/

@[simp] theorem State.withPending_perm (s : State) (w : Word) : (s.withPending w).perm = s.perm := rfl
@[simp] theorem State.withPending_key (s : State) (w : Word) : (s.withPending w).key = s.key := rfl
@[simp] theorem State.withPending_keyMask (s : State) (w : Word) : (s.withPending w).keyMask = s.keyMask :=
  rfl
@[simp] theorem State.withPending_nonce (s : State) (w : Word) : (s.withPending w).nonce = s.nonce := rfl
@[simp] theorem State.withPending_nonceMask (s : State) (w : Word) : (s.withPending w).nonceMask = s.nonceMask :=
  rfl
@[simp] theorem State.withPending_din (s : State) (w : Word) : (s.withPending w).din = s.din := rfl
@[simp] theorem State.withPending_dout (s : State) (w : Word) : (s.withPending w).dout = s.dout := rfl
@[simp] theorem State.withPending_tagin (s : State) (w : Word) : (s.withPending w).tagin = s.tagin := rfl
@[simp] theorem State.withPending_pending (s : State) (w : Word) : (s.withPending w).pending = w := rfl
@[simp] theorem State.withPending_busy (s : State) (w : Word) : (s.withPending w).busy = true := rfl
@[simp] theorem State.withPending_authOk (s : State) (w : Word) : (s.withPending w).authOk = s.authOk := rfl
@[simp] theorem State.withPending_dir (s : State) (w : Word) : (s.withPending w).dir = s.dir := rfl
@[simp] theorem State.withPending_overrun (s : State) (w : Word) : (s.withPending w).overrun = s.overrun :=
  rfl
@[simp] theorem State.withPending_phase (s : State) (w : Word) : (s.withPending w).phase = s.phase := rfl
@[simp] theorem State.withPending_err (s : State) (w : Word) : (s.withPending w).err = s.err := rfl
@[simp] theorem State.withPending_latLeft (s : State) (w : Word) : (s.withPending w).latLeft = 0 := rfl
@[simp] theorem State.withPending_skipEmptyData (s : State) (w : Word) : (s.withPending w).skipEmptyData = s.skipEmptyData :=
  rfl
@[simp] theorem State.withPending_freeCount (s : State) (w : Word) : (s.withPending w).freeCount = s.freeCount :=
  rfl
@[simp] theorem State.withPending_hostQueue (s : State) (w : Word) : (s.withPending w).hostQueue = s.hostQueue :=
  rfl
@[simp] theorem State.withPending_reads (s : State) (w : Word) : (s.withPending w).reads = s.reads := rfl

/-! ### hostRead: a host read (20_memory.md R76) -/

@[simp] theorem State.hostRead_perm (s : State) (off : Nat) : (s.hostRead off).perm = s.perm := rfl
@[simp] theorem State.hostRead_key (s : State) (off : Nat) : (s.hostRead off).key = s.key := rfl
@[simp] theorem State.hostRead_keyMask (s : State) (off : Nat) : (s.hostRead off).keyMask = s.keyMask := rfl
@[simp] theorem State.hostRead_nonce (s : State) (off : Nat) : (s.hostRead off).nonce = s.nonce := rfl
@[simp] theorem State.hostRead_nonceMask (s : State) (off : Nat) : (s.hostRead off).nonceMask = s.nonceMask :=
  rfl
@[simp] theorem State.hostRead_din (s : State) (off : Nat) : (s.hostRead off).din = s.din := rfl
@[simp] theorem State.hostRead_dout (s : State) (off : Nat) : (s.hostRead off).dout = s.dout := rfl
@[simp] theorem State.hostRead_tagin (s : State) (off : Nat) : (s.hostRead off).tagin = s.tagin := rfl
@[simp] theorem State.hostRead_pending (s : State) (off : Nat) : (s.hostRead off).pending = s.pending := rfl
@[simp] theorem State.hostRead_busy (s : State) (off : Nat) : (s.hostRead off).busy = s.busy := rfl
@[simp] theorem State.hostRead_authOk (s : State) (off : Nat) : (s.hostRead off).authOk = s.authOk := rfl
@[simp] theorem State.hostRead_dir (s : State) (off : Nat) : (s.hostRead off).dir = s.dir := rfl
@[simp] theorem State.hostRead_overrun (s : State) (off : Nat) : (s.hostRead off).overrun = s.overrun := rfl
@[simp] theorem State.hostRead_phase (s : State) (off : Nat) : (s.hostRead off).phase = s.phase := rfl
@[simp] theorem State.hostRead_err (s : State) (off : Nat) : (s.hostRead off).err = s.err := rfl
@[simp] theorem State.hostRead_latLeft (s : State) (off : Nat) : (s.hostRead off).latLeft = s.latLeft := rfl
@[simp] theorem State.hostRead_skipEmptyData (s : State) (off : Nat) : (s.hostRead off).skipEmptyData = s.skipEmptyData :=
  rfl
@[simp] theorem State.hostRead_freeCount (s : State) (off : Nat) : (s.hostRead off).freeCount = (if readIsFree s (regAt off) then s.freeCount + 1 else s.freeCount) :=
  rfl
@[simp] theorem State.hostRead_hostQueue (s : State) (off : Nat) : (s.hostRead off).hostQueue = s.hostQueue :=
  rfl
@[simp] theorem State.hostRead_reads (s : State) (off : Nat) : (s.hostRead off).reads = ⟨off, readValue s (regAt off)⟩ :: s.reads :=
  rfl

/-! ### applyReset: the reset input (70_reset_and_hazards.md R280) -/

@[simp] theorem State.applyReset_perm (s : State) : s.applyReset.perm = State.reset.perm := rfl
@[simp] theorem State.applyReset_key (s : State) : s.applyReset.key = State.reset.key := rfl
@[simp] theorem State.applyReset_keyMask (s : State) : s.applyReset.keyMask = State.reset.keyMask := rfl
@[simp] theorem State.applyReset_nonce (s : State) : s.applyReset.nonce = State.reset.nonce := rfl
@[simp] theorem State.applyReset_nonceMask (s : State) : s.applyReset.nonceMask = State.reset.nonceMask := rfl
@[simp] theorem State.applyReset_din (s : State) : s.applyReset.din = State.reset.din := rfl
@[simp] theorem State.applyReset_dout (s : State) : s.applyReset.dout = State.reset.dout := rfl
@[simp] theorem State.applyReset_tagin (s : State) : s.applyReset.tagin = State.reset.tagin := rfl
@[simp] theorem State.applyReset_pending (s : State) : s.applyReset.pending = State.reset.pending := rfl
@[simp] theorem State.applyReset_busy (s : State) : s.applyReset.busy = State.reset.busy := rfl
@[simp] theorem State.applyReset_authOk (s : State) : s.applyReset.authOk = State.reset.authOk := rfl
@[simp] theorem State.applyReset_dir (s : State) : s.applyReset.dir = State.reset.dir := rfl
@[simp] theorem State.applyReset_overrun (s : State) : s.applyReset.overrun = State.reset.overrun := rfl
@[simp] theorem State.applyReset_phase (s : State) : s.applyReset.phase = State.reset.phase := rfl
@[simp] theorem State.applyReset_err (s : State) : s.applyReset.err = State.reset.err := rfl
@[simp] theorem State.applyReset_latLeft (s : State) : s.applyReset.latLeft = State.reset.latLeft := rfl
@[simp] theorem State.applyReset_skipEmptyData (s : State) : s.applyReset.skipEmptyData = s.skipEmptyData :=
  rfl
@[simp] theorem State.applyReset_freeCount (s : State) : s.applyReset.freeCount = s.freeCount := rfl
@[simp] theorem State.applyReset_hostQueue (s : State) : s.applyReset.hostQueue = s.hostQueue := rfl
@[simp] theorem State.applyReset_reads (s : State) : s.applyReset.reads = s.reads := rfl

end Sys2Proof.Machine
end

