-- ==== Sys2Proof/Laws/Ops.lean ====
section
/-!
SUPPORT. What each shared operation can do, said once: the check, taking an error, an access at the port, a
cycle of the outside.
-/

namespace Sys2Proof.Machine

/-! ### The check (60_exceptions.md R252) -/

@[simp] theorem require_true (e : ErrCode) (s : State) (r : Result) : require true e s r = r := rfl

@[simp] theorem require_false (e : ErrCode) (s : State) (r : Result) :
    require false e s r = .next (s.raiseError e) := rfl

/-- A checked body: the check holds and the body answers, or the error is taken. -/
theorem require_eq_next {c : Bool} {e : ErrCode} {s t : State} {r : Result} :
    require c e s r = .next t ↔ (c = true ∧ r = .next t) ∨ (c = false ∧ t = s.raiseError e) := by
  cases c <;> simp [eq_comm]

/-! ### Taking an error (60_exceptions.md R253) -/

/-- Outside IDLE an error zeroizes. -/
theorem State.endSession_session {s : State} (h : s.phase ≠ .idle) (e : ErrCode) :
    s.endSession e = s.zeroize := if_pos (Or.inl h)

/-- AUTH zeroizes in every phase. -/
theorem State.endSession_auth (s : State) : s.endSession .auth = s.zeroize := if_pos (Or.inr rfl)

/-- In IDLE any other error leaves everything in place. -/
theorem State.endSession_idle {s : State} (h : s.phase = .idle) {e : ErrCode} (he : e ≠ .auth) :
    s.endSession e = s := if_neg (by simp [h, he])

/-- An error either zeroizes or leaves everything in place. -/
theorem State.endSession_cases (s : State) (e : ErrCode) :
    s.endSession e = s.zeroize ∨ (s.phase = .idle ∧ e ≠ .auth ∧ s.endSession e = s) := by
  by_cases h : s.phase = .idle
  · by_cases he : e = .auth
    · subst he; exact .inl s.endSession_auth
    · exact .inr ⟨h, he, s.endSession_idle h he⟩
  · exact .inl (s.endSession_session h e)

/-- The fields that an error sets, or never touches, whatever the phase. -/
theorem State.raiseError_fields (s : State) (e : ErrCode) :
    (s.raiseError e).err = e ∧ (s.raiseError e).authOk = false ∧ (s.raiseError e).busy = false ∧
    (s.raiseError e).latLeft = 0 ∧ (s.raiseError e).overrun = s.overrun ∧ (s.raiseError e).phase = .idle ∧
    (s.raiseError e).skipEmptyData = s.skipEmptyData ∧ (s.raiseError e).hostQueue = s.hostQueue ∧
    (s.raiseError e).reads = s.reads ∧ (s.raiseError e).freeCount = s.freeCount + 1 := by
  rcases s.endSession_cases e with h | ⟨hp, -, h⟩ <;> simp [State.raiseError, h]
  exact hp

@[simp] theorem State.raiseError_err (s : State) (e : ErrCode) : (s.raiseError e).err = e :=
  (s.raiseError_fields e).1

@[simp] theorem State.raiseError_authOk (s : State) (e : ErrCode) : (s.raiseError e).authOk = false :=
  (s.raiseError_fields e).2.1

@[simp] theorem State.raiseError_busy (s : State) (e : ErrCode) : (s.raiseError e).busy = false :=
  (s.raiseError_fields e).2.2.1

@[simp] theorem State.raiseError_latLeft (s : State) (e : ErrCode) : (s.raiseError e).latLeft = 0 :=
  (s.raiseError_fields e).2.2.2.1

@[simp] theorem State.raiseError_overrun (s : State) (e : ErrCode) : (s.raiseError e).overrun = s.overrun :=
  (s.raiseError_fields e).2.2.2.2.1

/-- After every error the core is in IDLE (60_exceptions.md R253). -/
@[simp] theorem State.raiseError_phase (s : State) (e : ErrCode) : (s.raiseError e).phase = .idle :=
  (s.raiseError_fields e).2.2.2.2.2.1

@[simp] theorem State.raiseError_skipEmptyData (s : State) (e : ErrCode) :
    (s.raiseError e).skipEmptyData = s.skipEmptyData := (s.raiseError_fields e).2.2.2.2.2.2.1

@[simp] theorem State.raiseError_hostQueue (s : State) (e : ErrCode) :
    (s.raiseError e).hostQueue = s.hostQueue := (s.raiseError_fields e).2.2.2.2.2.2.2.1

@[simp] theorem State.raiseError_reads (s : State) (e : ErrCode) : (s.raiseError e).reads = s.reads :=
  (s.raiseError_fields e).2.2.2.2.2.2.2.2.1

@[simp] theorem State.raiseError_freeCount (s : State) (e : ErrCode) :
    (s.raiseError e).freeCount = s.freeCount + 1 := (s.raiseError_fields e).2.2.2.2.2.2.2.2.2

/-- An error in a session is a zeroize with its code. -/
theorem State.raiseError_session {s : State} (h : s.phase ≠ .idle) (e : ErrCode) :
    s.raiseError e = ({ s.zeroize with err := e, authOk := false } : State).retire := by
  rw [State.raiseError, State.endSession_session h]

/-- An error in IDLE, other than AUTH, changes ERR and AUTH_OK alone. -/
theorem State.raiseError_idle {s : State} (h : s.phase = .idle) {e : ErrCode} (he : e ≠ .auth) :
    s.raiseError e = ({ s with err := e, authOk := false } : State).retire := by
  rw [State.raiseError, State.endSession_idle h he]

/-! ### The port (20_memory.md R61 to R75) -/

/-- Everything one access can answer. -/
theorem hostAccess_eq_next {a : Access} {s t : State} :
    hostAccess a s = .next t ↔ a.offset < windowBytes ∧ a.isWord = true ∧
      ((a.op = .read ∧ t = s.hostRead a.offset) ∨ ∃ v, a.op = .write v ∧ t = s.hostWrite a.offset v) := by
  unfold hostAccess
  by_cases h : windowBytes ≤ a.offset
  · simp [h]
  · cases hw : a.isWord <;> cases ho : a.op <;> simp [h, eq_comm] <;> omega

/-- Everything a cycle of the outside can answer. -/
theorem hostCycle_eq_next {s t : State} (h : hostCycle s = .next t) :
    (s.hostQueue = [] ∧ t = s.tick) ∨
    ∃ e rest, s.hostQueue = e :: rest ∧
      hostEvent e { s.tick with hostQueue := rest } = .next t := by
  unfold hostCycle at h
  cases hq : s.hostQueue with
  | nil => rw [hq] at h; simp at h; exact .inl ⟨rfl, h.symm⟩
  | cons e rest => rw [hq] at h; exact .inr ⟨e, rest, rfl, h⟩

/-- Everything one event of the outside can answer. -/
theorem hostEvent_eq_next {e : HostEvent} {s t : State} (h : hostEvent e s = .next t) :
    (e = .idle ∧ t = s) ∨
    (∃ a, e = .access a ∧ a.offset < windowBytes ∧ a.isWord = true ∧
      ((a.op = .read ∧ t = s.hostRead a.offset) ∨ ∃ v, a.op = .write v ∧ t = s.hostWrite a.offset v)) ∨
    (e = .poll ∧ s.busy = false ∧ t = s.hostRead statusOffset) ∨
    (e = .poll ∧ s.busy = true ∧
      t = { s.hostRead statusOffset with hostQueue := .poll :: s.hostQueue }) ∨
    (e = .reset ∧ t = s.applyReset) := by
  cases e with
  | idle => simp [hostEvent] at h; simp [h]
  | access a => simp only [hostEvent, hostAccess_eq_next] at h; simp [h]
  | poll => cases hb : s.busy <;> simp [hostEvent, hb] at h <;> simp [← h, hb]
  | reset => simp [hostEvent] at h; simp [h]

end Sys2Proof.Machine
end

