-- ==== Sys2Proof/Laws/PerInstr.lean ====
section
/-!
SUPPORT. Per instruction: the encoder's word agrees with the row of the opcode table that carries the
instruction's mnemonic (30_encoding.md R101).
-/

namespace Sys2Proof.Laws.EncodesRow

/-- A row of the table that carries the mnemonic covers the word of the instruction. -/
def Statement (i : Instr) : Prop := ∃ r ∈ opcodeRows, r.mnemonic = i.mnemonic ∧ r.covers (encode i) = true

/-- A LEN field in its place leaves the bits outside [13:8] alone. -/
theorem covers_len (len : BitVec 6) (op : Word) (h : op &&& 0xFFFFC0FF = op) :
    (op ||| placeLen len) &&& 0xFFFFC0FF = op := by
  have hl : placeLen len &&& 0xFFFFC0FF = 0 := by revert len; decide
  rw [BitVec.and_or_distrib_right, h, hl]; simp

theorem nop : Statement .nop := ⟨_, .head _, rfl, by decide⟩
theorem init (dir : Dir) : Statement (.init dir) :=
  ⟨opcodeRows[1], by decide, rfl, by cases dir <;> decide⟩
theorem aadBlock : Statement .aadBlock := ⟨opcodeRows[2], by decide, rfl, by decide⟩
theorem aadFinal (len : BitVec 6) : Statement (.aadFinal len) :=
  ⟨opcodeRows[3], by decide, rfl, beq_iff_eq.mpr (covers_len len 3 (by decide))⟩
theorem encBlock : Statement .encBlock := ⟨opcodeRows[4], by decide, rfl, by decide⟩
theorem encFinal (len : BitVec 6) : Statement (.encFinal len) :=
  ⟨opcodeRows[5], by decide, rfl, beq_iff_eq.mpr (covers_len len 5 (by decide))⟩
theorem decBlock : Statement .decBlock := ⟨opcodeRows[6], by decide, rfl, by decide⟩
theorem decFinal (len : BitVec 6) : Statement (.decFinal len) :=
  ⟨opcodeRows[7], by decide, rfl, beq_iff_eq.mpr (covers_len len 7 (by decide))⟩
theorem finalize : Statement .finalize := ⟨opcodeRows[8], by decide, rfl, by decide⟩
theorem verify : Statement .verify := ⟨opcodeRows[9], by decide, rfl, by decide⟩
theorem perm (nb : BitVec 2) (steps : BitVec 8) : Statement (.perm nb steps) := by
  refine ⟨opcodeRows[10], by decide, rfl, beq_iff_eq.mpr ?_⟩
  have hn : (nb.setWidth 32 <<< 4 : Word) &&& 0xFF00FFCF = 0 := by revert nb; decide
  have hs : (steps.setWidth 32 <<< 16 : Word) &&& 0xFF00FFCF = 0 := by revert steps; decide
  show (0x0000000A ||| (nb.setWidth 32 <<< 4) ||| (steps.setWidth 32 <<< 16) : Word) &&& 0xFF00FFCF = 0x0000000A
  rw [BitVec.and_or_distrib_right, BitVec.and_or_distrib_right, hn, hs]
  decide
theorem clear : Statement .clear := ⟨opcodeRows[11], by decide, rfl, by decide⟩

end Sys2Proof.Laws.EncodesRow
end

