-- ==== Sys2Proof/Laws/Words.lean ====
section
/-!
SUPPORT. Laws of the eight-word buffer and of its bytes: reading back what a word, a byte or a whole buffer was
made of.
-/

namespace Sys2Proof

/-- Two buffers with the same eight words are equal. -/
theorem Words8.ext_get {u v : Words8} (h : ∀ k, k < 8 → u.get k = v.get k) : u = v := by
  have h0 := h 0 (by decide); have h1 := h 1 (by decide); have h2 := h 2 (by decide)
  have h3 := h 3 (by decide); have h4 := h 4 (by decide); have h5 := h 5 (by decide)
  have h6 := h 6 (by decide); have h7 := h 7 (by decide)
  cases u; cases v
  simp only [Words8.get] at h0 h1 h2 h3 h4 h5 h6 h7
  simp only [Words8.mk.injEq]
  exact ⟨h0, h1, h2, h3, h4, h5, h6, h7⟩

/-- Past index 7 a buffer reads 0. -/
theorem Words8.get_of_ge (v : Words8) {k : Nat} (h : 8 ≤ k) : v.get k = 0 := by
  match k, h with
  | n + 8, _ => rfl

/-- Word `k` of a buffer made of `f`. -/
theorem Words8.get_ofFn (f : Nat → Word) {k : Nat} (h : k < 8) : (Words8.ofFn f).get k = f k := by
  match k, h with
  | 0, _ | 1, _ | 2, _ | 3, _ | 4, _ | 5, _ | 6, _ | 7, _ => rfl
  | n + 8, h => omega

/-- Read after write. -/
theorem Words8.get_set (v : Words8) (j : Nat) (a : Word) {k : Nat} (h : k < 8) :
    (v.set j a).get k = if k = j then a else v.get k := Words8.get_ofFn _ h

/-- Every word of the zero buffer is 0. -/
@[simp] theorem Words8.get_zero (k : Nat) : Words8.zero.get k = 0 := by
  by_cases h : k < 8
  · exact Words8.get_ofFn _ h
  · exact Words8.get_of_ge _ (by omega)

/-- Word by word exclusive OR. -/
theorem Words8.get_xor (u v : Words8) (k : Nat) : (u.xor v).get k = u.get k ^^^ v.get k := by
  by_cases h : k < 8
  · exact Words8.get_ofFn _ h
  · simp [Words8.get_of_ge _ (Nat.le_of_not_lt h)]

end Sys2Proof

namespace Sys2Proof.Machine

/-- The four bytes of `le32`, lowest first (00_scope.md R13). -/
theorem byte_of_le32 (b0 b1 b2 b3 : Byte) :
    (le32 b0 b1 b2 b3).extractLsb' 0 8 = b0 ∧ (le32 b0 b1 b2 b3).extractLsb' 8 8 = b1 ∧
    (le32 b0 b1 b2 b3).extractLsb' 16 8 = b2 ∧ (le32 b0 b1 b2 b3).extractLsb' 24 8 = b3 := by
  refine ⟨?_, ?_, ?_, ?_⟩ <;>
  · apply BitVec.eq_of_getLsbD_eq
    intro i hi
    simp only [le32, BitVec.getLsbD_extractLsb', BitVec.getLsbD_or, BitVec.getLsbD_setWidth,
      BitVec.getLsbD_shiftLeft]
    interval_cases i <;> simp

/-- Byte `n` of the buffer made of the bytes `f` (20_memory.md R65). -/
theorem byteAt_ofBytes (f : Nat → Byte) {n : Nat} (h : n < 32) : byteAt (ofBytes f) n = f n := by
  have hk : n / 4 < 8 := by omega
  obtain ⟨e0, e1, e2, e3⟩ :=
    byte_of_le32 (f (4 * (n / 4))) (f (4 * (n / 4) + 1)) (f (4 * (n / 4) + 2)) (f (4 * (n / 4) + 3))
  have hr : n % 4 = 0 ∨ n % 4 = 1 ∨ n % 4 = 2 ∨ n % 4 = 3 := by omega
  unfold byteAt ofBytes
  rw [Words8.get_ofFn _ hk]
  rcases hr with r | r | r | r <;> rw [r]
  · rw [e0]; congr 1; omega
  · rw [e1]; congr 1; omega
  · rw [e2]; congr 1; omega
  · rw [e3]; congr 1; omega

/-- A word is `le32` of its bytes. -/
theorem le32_bytes (w : Word) :
    le32 (w.extractLsb' 0 8) (w.extractLsb' 8 8) (w.extractLsb' 16 8) (w.extractLsb' 24 8) = w := by
  apply BitVec.eq_of_getLsbD_eq
  intro i hi
  simp only [le32, BitVec.getLsbD_extractLsb', BitVec.getLsbD_or, BitVec.getLsbD_setWidth,
    BitVec.getLsbD_shiftLeft]
  interval_cases i <;> simp

/-- A buffer is made of its bytes (00_scope.md R13: `bytes` and packing are inverse). -/
theorem ofBytes_byteAt (v : Words8) : ofBytes (byteAt v) = v := by
  apply Words8.ext_get
  intro k hk
  unfold ofBytes
  rw [Words8.get_ofFn _ hk]
  have h (j : Nat) (hj : j < 4) : byteAt v (4 * k + j) = (v.get k).extractLsb' (8 * j) 8 := by
    unfold byteAt
    rw [show (4 * k + j) / 4 = k by omega, show (4 * k + j) % 4 = j by omega]
  rw [show byteAt v (4 * k) = _ from h 0 (by decide), h 1 (by decide), h 2 (by decide), h 3 (by decide)]
  exact le32_bytes _

/-- Two buffers with the same 32 bytes are equal. -/
theorem ext_byteAt {u v : Words8} (h : ∀ n, n < 32 → byteAt u n = byteAt v n) : u = v := by
  rw [← ofBytes_byteAt u, ← ofBytes_byteAt v]
  apply Words8.ext_get
  intro k hk
  unfold ofBytes
  rw [Words8.get_ofFn _ hk, Words8.get_ofFn _ hk, h _ (by omega), h _ (by omega), h _ (by omega),
    h _ (by omega)]

/-- Byte `n` of a word by word exclusive OR. -/
theorem byteAt_xor (u v : Words8) (n : Nat) : byteAt (u.xor v) n = byteAt u n ^^^ byteAt v n := by
  unfold byteAt
  rw [Words8.get_xor]
  apply BitVec.eq_of_getLsbD_eq
  intro i hi
  simp [hi]

end Sys2Proof.Machine
end

