-- ==== Sys2Proof/Laws/Safety.lean ====
section
/-!
SUPPORT. What the functions that claims speak of can do: a sequence of commands, each of which completes without an
error; and every word after the domain constant is added.
-/

namespace Sys2Proof.Machine

/-! ### Sequences of commands -/

/-- A command is accepted when it answers a next state without an error. -/
theorem acceptCommand_eq_some {c : Instr} {s t : State} :
    acceptCommand c s = some t ↔ exec c s = .next t ∧ t.err = .ok := by
  unfold acceptCommand
  cases h : exec c s with
  | next u =>
    simp only [Option.ite_none_right_eq_some, Option.some.injEq, Host.Outcome.next.injEq]
    constructor
    · rintro ⟨he, rfl⟩; exact ⟨rfl, he⟩
    · rintro ⟨rfl, he⟩; exact ⟨he, rfl⟩
  | fault f => simp
  | refused r => simp

@[simp] theorem acceptAll_nil (s : State) : acceptAll [] s = some s := rfl

/-- A sequence is accepted when its first command is, and the rest is from the state that leaves. -/
theorem acceptAll_cons_eq_some {c : Instr} {cs : List Instr} {s t : State} :
    acceptAll (c :: cs) s = some t ↔
      ∃ u, exec c s = .next u ∧ u.err = .ok ∧ acceptAll cs u = some t := by
  simp only [acceptAll, Option.bind_eq_some_iff, acceptCommand_eq_some, and_assoc]

/-! ### Domain separation (41_sponge.md R170) -/

@[simp] theorem addDomain_x (c : Word) (p : SparkleState) : (addDomain c p).x = p.x := rfl

@[simp] theorem addDomain_y_seven (c : Word) (p : SparkleState) :
    (addDomain c p).y.get 7 = p.y.get 7 ^^^ c := rfl

/-- No word of `y` below the last gets the constant. -/
theorem addDomain_y_below (c : Word) (p : SparkleState) {i : Nat} (h : i < 7) :
    (addDomain c p).y.get i = p.y.get i := by
  rw [addDomain, Words8.get_set _ _ _ (by omega), if_neg (by omega)]

end Sys2Proof.Machine
end

