-- ==== Sys2Proof/Laws/Step.lean ====
section
/-!
SUPPORT. What a step can do, said once: a command completes, an undecoded word completes, or a cycle of the
outside passes.
-/

namespace Sys2Proof.Machine

/-- A command completes. -/
theorem step_of_command {s : State} {i : Instr} (h : completesNow s = true)
    (hi : pendingCommand s = some i) : step s = exec i s := by
  simp [step, h, hi]

/-- A word that is no command completes. -/
theorem step_of_illegal {s : State} (h : completesNow s = true) (hi : pendingCommand s = none) :
    step s = .next (s.raiseError .illegal) := by
  simp [step, h, hi, completeIllegal]

/-- No command completes. -/
theorem step_of_cycle {s : State} (h : completesNow s = false) : step s = hostCycle s := by
  simp [step, h]

/-- Everything a step can do, where it answers a next state. -/
theorem step_eq_next {s t : State} (h : step s = .next t) :
    (completesNow s = true ∧ ∃ i, pendingCommand s = some i ∧ exec i s = .next t) ∨
    (completesNow s = true ∧ pendingCommand s = none ∧ t = s.raiseError .illegal) ∨
    (completesNow s = false ∧ hostCycle s = .next t) := by
  cases hc : completesNow s with
  | false => rw [step_of_cycle hc] at h; exact .inr (.inr ⟨rfl, h⟩)
  | true =>
    cases hi : pendingCommand s with
    | none => rw [step_of_illegal hc hi] at h; simp at h; exact .inr (.inl ⟨rfl, rfl, h.symm⟩)
    | some i => rw [step_of_command hc hi] at h; exact .inl ⟨rfl, i, rfl, h⟩

end Sys2Proof.Machine
end

