-- ==== Sys2Proof/Tests/Slice0.lean ====
section
/-!
SUPPORT. The model's own tests: the smoke test of the well-formedness check, decoded words, the vectors of
95_test_vectors.md on one step each, and for each obligation a state that meets its hypotheses.
-/

namespace Sys2Proof.Machine.Tests

/-! ### Well-formedness -/

/-- The one check refuses the reserved size (30_encoding.md R99). -/
theorem test_wellFormed_refuses_nb3 : (Instr.perm 3 12).wellFormed = false := by decide
theorem test_wellFormed_admits_sizes :
    (Instr.perm 0 1).wellFormed ∧ (Instr.perm 1 0).wellFormed ∧ (Instr.perm 2 255).wellFormed := by decide

/-! ### Decoding: words written out from 30_encoding.md R91 and R103 -/

theorem test_decode_nop : decodeTableWord 32 0b00000000000000000000000000000000 = some .nop := by decide
theorem test_decode_init_enc :
    decodeTableWord 32 0b00000000000000000000000000000001 = some (.init .encrypt) := by decide
theorem test_decode_init_dec :
    decodeTableWord 32 0b00000000000000000000000000010001 = some (.init .decrypt) := by decide
theorem test_decode_aadBlock : decodeTableWord 32 0b00000000000000000000000000000010 = some .aadBlock := by decide
theorem test_decode_aadFinal :
    decodeTableWord 32 0b00000000000000000001111100000011 = some (.aadFinal 31) := by decide
theorem test_decode_encBlock : decodeTableWord 32 0b00000000000000000000000000000100 = some .encBlock := by decide
theorem test_decode_encFinal :
    decodeTableWord 32 0b00000000000000000010000000000101 = some (.encFinal 32) := by decide
theorem test_decode_decBlock : decodeTableWord 32 0b00000000000000000000000000000110 = some .decBlock := by decide
theorem test_decode_decFinal :
    decodeTableWord 32 0b00000000000000000000000100000111 = some (.decFinal 1) := by decide
theorem test_decode_finalize : decodeTableWord 32 0b00000000000000000000000000001000 = some .finalize := by decide
theorem test_decode_verify : decodeTableWord 32 0b00000000000000000000000000001001 = some .verify := by decide
theorem test_decode_perm :
    decodeTableWord 32 0b00000000110000010000000000011010 = some (.perm 1 0xC1) := by decide
theorem test_decode_clear : decodeTableWord 32 0b00000000000000000000000000001011 = some .clear := by decide

/-- The illegal words of 95_test_vectors.md T4. -/
theorem test_decode_illegal :
    [0x0000000C, 0x0000000F, 0x00000040, 0x00004000, 0x01000000, 0x00000021, 0x00000012, 0x00000102, 0x00010001,
      0x0000003A].all (fun w => decodeTableWord 32 w = none) := by decide

/-- Fewer than four bytes are no command word (30_encoding.md R90). -/
theorem test_decode_truncated : decodeBytes [0x0B, 0x00, 0x00] = .error .truncated := by decide

/-! ### The engine and the sponge: 95_test_vectors.md T2 and T3 -/

theorem test_rotr :
    rotr 0x12345678 16 = 0x56781234 ∧ rotr 0xDEADBEEF 0 = 0xDEADBEEF ∧ rotr 0x12345678 17 = 0x2B3C091A := by decide
theorem test_ell : ell 0x12345678 = 0x5678444C ∧ ell 0x0000FFFF = 0xFFFFFFFF := by decide
theorem test_alzette :
    alzette (rcon.get 2) (0x01234567, 0x89ABCDEF) = (0x351B4332, 0x17667C32) ∧
    alzetteInv (rcon.get 2) (0x351B4332, 0x17667C32) = (0x01234567, 0x89ABCDEF) := by decide +kernel

/-- T2.3, nb = 6. -/
theorem test_linearLayer :
    (linearLayer 6 ⟨⟨1, 2, 3, 4, 5, 6, 0, 0⟩, ⟨7, 8, 9, 0xA, 0xB, 0xC, 0, 0⟩⟩).x =
      ⟨0x00060001, 0x00060003, 0x00060003, 1, 2, 3, 0, 0⟩ := by decide +kernel

/-- T2.6, the largest step count. -/
theorem test_sparkle_255 : (sparkle 8 255 SparkleState.zero).y.w7 = 0x86C9CAE0 := by decide +kernel

/-- T3.2. -/
theorem test_pad : (pad (ofBytes fun _ => 0xAA) 31).w7 = 0x80AAAAAA ∧ (pad (ofBytes fun _ => 0xAA) 0).w0 = 0x80 := by
  decide

/-- T3.3. -/
theorem test_absorb :
    (absorb (pad Words8.zero 0) ⟨⟨0x10, 0x20, 0x30, 0x40, 1, 2, 3, 4⟩, ⟨0x11, 0x21, 0x31, 0x41, 5, 6, 7, 8⟩⟩).x =
      ⟨0xB1, 0x42, 0x23, 0x64, 1, 2, 3, 4⟩ := by decide

/-! ### Commands: 95_test_vectors.md T2.7, T3.4, T3.5, T4 -/

/-- The bytes 00..1F. -/
def ascending : Words8 := ofBytes fun k => BitVec.ofNat 8 k

/-- A loaded core in IDLE. -/
def loaded : State :=
  { State.reset with key := ascending, keyMask := 0xFF, nonce := ascending, nonceMask := 0xFF, din := ascending }

/-- A session in a phase and direction, with the example key, and the state that INIT leaves. -/
def session (q : Phase) (d : Dir) : State :=
  { loaded with perm := initState ascending ascending, phase := q, dir := d }

/-- The state that the word `w` leaves when it is the pending command; `s` itself where the step stops. -/
def after (s : State) (w : Nat) : State :=
  match step (s.withFetchWord 32 w) with
  | .next t => t
  | .fault _ => s
  | .refused _ => s

/-- STATUS after it. -/
def statusAfter (s : State) (w : Nat) : Word := statusWord (after s w)

theorem test_nop_status : statusAfter (session .done .encrypt) 0x00000000 = 0x00000606 := by decide +kernel
theorem test_init_state :
    (after loaded 0x00000001).perm.x.w0 = 0x1A1A58BB ∧ statusAfter loaded 0x00000001 = 0x00000106 := by decide +kernel
theorem test_init_nokey : statusAfter { loaded with nonceMask := 0x7F } 0x00000001 = 0x00005002 := by decide +kernel
theorem test_aadBlock_state :
    (after (session .aadStart .encrypt) 0x00000002).perm.y.w7 = 0x3A0F5AD1 ∧
    statusAfter (session .aadStart .encrypt) 0x00000002 = 0x00000206 := by decide +kernel
theorem test_aadFinal_state :
    (after (session .aadStart .encrypt) 0x00000103).perm.x.w0 = 0xADB2156A ∧
    (after (session .aadStart .encrypt) 0x00002003).perm.x.w0 = 0x6C89CF78 := by decide +kernel
theorem test_aadFinal_length : statusAfter (session .aadStart .encrypt) 0x00000003 = 0x00003000 := by decide +kernel
theorem test_encBlock_output :
    (after (session .aadStart .encrypt) 0x00000004).dout.w0 = 0x191859BB ∧
    statusAfter (session .aadStart .encrypt) 0x00000004 = 0x00000406 := by decide +kernel
theorem test_encBlock_open_aad : statusAfter (session .aadMid .encrypt) 0x00000004 = 0x00002000 := by decide +kernel
theorem test_encFinal_output :
    (after (session .aadStart .encrypt) 0x00001F05).dout.w7 = 0x004B228F ∧
    (after (session .aadStart .encrypt) 0x00001F05).perm.x.w0 = 0x08F522F3 := by decide +kernel
theorem test_encFinal_empty :
    (after (session .aadStart .encrypt) 0x00000005).perm.x.w0 = 0x2777DD8F ∧
    statusAfter (session .dataMid .encrypt) 0x00000005 = 0x00003000 := by decide +kernel
theorem test_decBlock_output :
    (after { session .aadStart .decrypt with din := ⟨0x191859BB, 0xD9D4C55D, 0x7B4A5944, 0x0146D663, 0x2E02BE40,
      0x3CD165FB, 0xA450FB16, 0x694B228F⟩ } 0x00000006).dout = ascending := by decide +kernel
theorem test_decFinal_output :
    (after { session .aadStart .decrypt with din := ⟨0xBB, 0, 0, 0, 0, 0, 0, 0⟩ } 0x00000107).perm.x.w0 = 0xE63AF308 ∧
    statusAfter (session .aadStart .decrypt) 0x00000007 = 0x00000516 := by decide +kernel
theorem test_finalize_state :
    (after (after (session .aadStart .encrypt) 0x00000005) 0x00000008).perm.x.w4 = 0xF7FC0583 := by decide +kernel
theorem test_finalize_skip :
    statusAfter (session .aadStart .encrypt) 0x00000008 = 0x00002000 ∧
    statusAfter { session .aadStart .encrypt with skipEmptyData := true } 0x00000008 = 0x00000606 := by decide +kernel
theorem test_verify_match :
    statusAfter { session .done .decrypt with tagin := capacityWords (initState ascending ascending) } 0x00000009 =
      0x00000008 := by decide +kernel

/-- Two bytes that differ in the same bit: an XOR accumulator would accept them (90_conflicts.md C4). -/
theorem test_verify_mismatch :
    statusAfter { session .done .decrypt with
      tagin := (capacityWords (initState ascending ascending)).xor ⟨0x0101, 0, 0, 0, 0, 0, 0, 0⟩ } 0x00000009 =
      0x00006000 := by decide +kernel
theorem test_perm_state :
    (after State.reset 0x000C002A).perm.x.w0 = 0x4E220540 ∧
    (after { State.reset with perm := ⟨⟨1, 0, 0, 0, 0, 0, 0, 0⟩, ⟨0, 0, 0, 0, 0, 0, 0, 0xFFFFFFFF⟩⟩ } 0x0001000A).perm.x.w0 =
      0xB0343D23 := by decide +kernel
theorem test_perm_errors :
    statusAfter State.reset 0x0000002A = 0x00004000 ∧ statusAfter State.reset 0x000C003A = 0x00001000 := by
  decide +kernel
theorem test_clear_status :
    statusAfter { session .dataMid .decrypt with overrun := true } 0x0000000B = 0x00000000 := by decide +kernel
theorem test_illegal_zeroizes : (after (session .aadStart .encrypt) 0x0000000C).key = Words8.zero := by
  decide +kernel

/-! ### The port: 95_test_vectors.md T4.1, T4.2 -/

/-- What one read at an offset returns. -/
def readBack (s : State) (off : Nat) : Word := readValue s (regAt off)

theorem test_reads_in_session :
    readBack (session .aadStart .encrypt) 0x040 = 0 ∧ readBack (session .aadStart .encrypt) 0x080 = 0 ∧
    readBack (session .aadStart .encrypt) 0x100 = 0 ∧ readBack (session .aadStart .encrypt) 0x1FC = 0 ∧
    readBack (session .done .encrypt) 0x100 = 0x93C1401E ∧ readBack (session .done .decrypt) 0x100 = 0 := by
  decide +kernel
theorem test_write_state : (State.reset.hostWrite 0x044 0xA5A5A5A5).perm.y.w0 = 0xA5A5A5A5 := by decide
theorem test_write_key :
    (State.reset.hostWrite 0x09C 5).key.w7 = 5 ∧ (State.reset.hostWrite 0x09C 5).keyMask = 0x80 ∧
    ((session .aadStart .encrypt).hostWrite 0x080 5).key.w0 = 0x03020100 := by decide +kernel
theorem test_write_busy :
    statusWord ((State.reset.withPending 0x000C002A).hostWrite 0x040 5) = 0x00000021 := by decide
theorem test_access_past_window :
    step { State.reset with hostQueue := [rd 0x200] } = .fault (.outsideWindow 0x200) := rfl
theorem test_access_misaligned : step { State.reset with hostQueue := [rd 0x041] } = .refused .subwordAccess := rfl
theorem test_access_burst :
    step { State.reset with hostQueue := [.access ⟨0x040, 4, 8, .read⟩] } = .refused .subwordAccess := rfl

/-! ### Host syntax (30_encoding.md R103) and chunking (41_sponge.md R181) -/

theorem test_assemble :
    (assemble (.perm 8 12)).map encode = some 0x000C002A ∧ (assemble (.aadFinal 32)).map encode = some 0x00002003 ∧
    assemble (.aadFinal 0) = none ∧ assemble (.perm 5 1) = none := by decide
theorem test_chunks :
    (chunks (List.replicate 33 0)).map List.length = [32, 1] ∧ (chunks (List.replicate 64 0)).map List.length = [32, 32] ∧
    chunks [] = [[]] := by decide

/-- P5 of 95_test_vectors.md: the first byte of the second block. -/
theorem test_encPhase :
    ((aeadEncrypt false (List.range 32 |>.map (BitVec.ofNat 8)) (List.range 32 |>.map (BitVec.ofNat 8)) [0x00] [0x00]).1) =
      [0x6A] := by decide +kernel

/-! ### Witnesses: states that meet the hypotheses of the obligations -/

theorem witness_DecodeOfEncode : (Instr.perm 2 255).wellFormed = true ∧ (Instr.encFinal 63).wellFormed = true := by
  decide
theorem witness_EncodeOfDecode : decodeWord 0x00FF002A = .ok (.perm 2 255) := by decide
theorem witness_DecodeFollowsOpcodeTable :
    ∃ r ∈ opcodeRows, r.covers 0x00003F05 = true ∧ decodeWord 0x00003F05 = .ok (.encFinal 63) :=
  ⟨opcodeRows[5], by decide, by decide, by decide⟩

/-- A word for each clause about fields, and a pending word for the last clause. -/
theorem witness_DecodeFollowsOpcodeTable_fields :
    decodeWord 0x00000011 = .ok (.init .decrypt) ∧ decodeWord 0x00003F03 = .ok (.aadFinal 63) ∧
    decodeWord 0x00003F07 = .ok (.decFinal 63) ∧ decodeWord 0x00FF002A = .ok (.perm 2 255) ∧
    completesNow (State.reset.withPending 0x3A) = true := by decide
theorem witness_StepRunsPendingCommand :
    (State.reset.withPending 0x0000000B).busy = true ∧ (State.reset.withPending 0x0000000B).latLeft = 0 ∧
    decodeWord (State.reset.withPending 0x0000000B).pending = .ok .clear := by decide
theorem witness_UndecodedWordRaisesIllegal :
    (State.reset.withPending 0xC).phase = .idle ∧ ((session .done .encrypt).withPending 0xC).phase ≠ .idle ∧
    decodeWord 0xC = .error .reservedOp := by decide
theorem witness_StateViews : (7 : Nat) < 8 ∧ (3 : Nat) < 4 := by decide
theorem witness_SparkleSteps :
    ((6 : Nat) = 4 ∨ (6 : Nat) = 6 ∨ (6 : Nat) = 8) ∧ (2 : Nat) ≤ 7 ∧ (7 : Nat) < 8 ∧ (5 : Nat) < 6 := by decide
theorem witness_LinearLayerWords : (3 : Nat) < 8 / 2 ∧ (1 : Nat) < 4 / 2 ∧ (8 : Nat) ≤ 8 := by decide
theorem witness_SparkleIsPermutation : ((4 : Nat) = 4 ∨ (4 : Nat) = 6 ∨ (4 : Nat) = 8) ∧ (4 : Nat) ≤ 4 := by decide
theorem witness_PadBytes : (32 : Nat) ≤ 32 ∧ (31 : Nat) < 32 ∧ (7 : Nat) < 8 := by decide
theorem witness_AbsorbWords : (1 : Nat) < 2 ∧ (3 : Nat) < 4 ∧ (4 : Nat) ≤ 4 := by decide
theorem witness_DecryptionUndoesEncryptionOfBlock : (32 : Nat) ≤ 32 ∧ (0 : Nat) < 32 := by decide
theorem witness_InitStartsSession :
    loaded.phase = .idle ∧ loaded.keyMask = 0xFF ∧ loaded.nonceMask = 0xFF := by decide
theorem witness_AadBlockAbsorbs :
    (session .aadStart .encrypt).phase = .aadStart ∧ (session .aadMid .decrypt).phase = .aadMid := by decide
theorem witness_AadFinalAbsorbs :
    (session .aadMid .encrypt).phase = .aadMid ∧ 1 ≤ (1 : BitVec 6).toNat ∧ (32 : BitVec 6).toNat ≤ 32 := by decide
theorem witness_EncBlockEncrypts :
    (session .dataMid .encrypt).dir = .encrypt ∧ (session .dataMid .encrypt).phase = .dataMid := by decide
theorem witness_EncFinalEncrypts :
    (session .dataStart .encrypt).dir = .encrypt ∧ (session .dataStart .encrypt).phase = .dataStart ∧
    (0 : BitVec 6).toNat ≤ 32 ∧
    ((session .dataStart .encrypt).phase ≠ .dataMid ∧ (session .dataStart .encrypt).skipEmptyData = false) := by decide
theorem witness_DecBlockDecrypts :
    (session .aadStart .decrypt).dir = .decrypt ∧ (session .aadStart .decrypt).phase = .aadStart := by decide
theorem witness_DecFinalDecrypts :
    (session .dataMid .decrypt).dir = .decrypt ∧ (session .dataMid .decrypt).phase = .dataMid ∧
    (32 : BitVec 6).toNat ≤ 32 ∧ 1 ≤ (32 : BitVec 6).toNat := by decide
theorem witness_FinalizeInjectsKey :
    (session .finalReady .encrypt).phase = .finalReady ∧
    ({ session .dataStart .decrypt with skipEmptyData := true } : State).skipEmptyData = true := by decide
theorem witness_VerifyComparesTag :
    (session .done .decrypt).phase = .done ∧ (session .done .decrypt).dir = .decrypt := by decide

/-- Both outcomes of VERIFY have a TAGIN: the capacity itself, and the capacity with one bit of word 7 flipped. -/
theorem witness_VerifyComparesTag_outcomes :
    (∀ k, k < 8 → (capacityWords (session .done .decrypt).perm).get k = flatWord (session .done .decrypt).perm (8 + k)) ∧
    ((capacityWords (session .done .decrypt).perm).xor ⟨0, 0, 0, 0, 0, 0, 0, 0x80000000⟩).get 7 ≠
      flatWord (session .done .decrypt).perm 15 := by
  refine ⟨fun k hk => Words8.get_ofFn _ hk, ?_⟩
  rw [Words8.get_xor, capacityWords, Words8.get_ofFn _ (by decide)]
  intro h
  have h' := congrArg (fun v : Word => flatWord (session .done .decrypt).perm 15 ^^^ v) h
  simp only [← BitVec.xor_assoc, BitVec.xor_self, BitVec.zero_xor] at h'
  exact absurd h' (by decide)

theorem witness_PermPermutesState : State.reset.phase = .idle ∧ (2 : BitVec 2) ≠ 3 ∧ (255 : BitVec 8) ≠ 0 := by decide
theorem witness_ErrorPriority :
    completesNow (State.reset.withPending 0x2A) = true ∧
    exec .verify State.reset = .next (State.reset.raiseError .sequence) ∧
    (State.reset.raiseError .sequence).err ≠ .ok ∧ (State.reset.raiseError .sequence).err ≠ .auth := by
  refine ⟨by decide, rfl, by simp, by simp⟩

/-- An error in IDLE and one in a session. -/
theorem witness_ErrorEffect :
    step (State.reset.withPending 0x2A) = .next ((State.reset.withPending 0x2A).raiseError .steps) ∧
    step ((session .aadStart .encrypt).withPending 0x8) =
      .next (((session .aadStart .encrypt).withPending 0x8).raiseError .sequence) := ⟨rfl, rfl⟩
theorem witness_ResultReport :
    completesNow ((session .done .decrypt).withPending 0x9) = true ∧
    pendingCommand ((session .done .decrypt).withPending 0x9) = some .verify := by decide
theorem witness_AcceptanceTable :
    Instr.nop.wellFormed = true ∧ exec .nop State.reset = .next State.reset.clearAuth.succeed := ⟨rfl, rfl⟩
theorem witness_ResetInputResets :
    completesNow { session .dataMid .decrypt with hostQueue := [.reset] } = false := by decide

/-- Each clause of the register map at the ends of its range: the offsets are aligned and in the window, and the
state's queue holds the access. -/
theorem witness_RegisterAccesses :
    [0x000, 0x004, 0x008, 0x03C, 0x040, 0x078, 0x044, 0x07C, 0x080, 0x09C, 0x0A0, 0x0BC, 0x0C0, 0x0DC, 0x0E0, 0x0FC,
      0x100, 0x11C, 0x120, 0x13C, 0x140, 0x1FC].all (fun off => off % 4 = 0 ∧ off < 0x200 ∧
        ({ State.reset with hostQueue := [rd off] } : State).hostQueue = [.access ⟨off, 4, 1, .read⟩] ∧
        ({ State.reset with hostQueue := [wr off 7] } : State).hostQueue = [.access ⟨off, 4, 1, .write 7⟩]) := by
  decide

/-- A busy core with a cycle of latency left, and the host's three kinds of access. -/
theorem witness_AccessesWhileBusy :
    [wr 0x000 0xB, rd 0x004, rd 0x0C0].all (fun e =>
      let s : State := { State.reset with busy := true, latLeft := 1, hostQueue := [e] }
      s.busy = true ∧ s.latLeft ≠ 0 ∧ s.hostQueue = [e] ∧ e.wellFormed = true) := by decide

theorem witness_StepKeepsInvariant : ∃ t, State.reset.Inv ∧ step State.reset = .next t :=
  ⟨State.reset, by constructor <;> decide, rfl⟩

/-- An INIT that begins a session. -/
theorem witness_SessionBeginsOnlyByInit :
    ∃ t, step (loaded.withPending 0x11) = .next t ∧ ¬ (loaded.withPending 0x11).inSession ∧ t.inSession :=
  ⟨_, rfl, by simp [State.inSession, loaded, State.reset], by simp [State.inSession]⟩

/-- A NOP in a session. -/
theorem witness_SessionKeepsKeyAndDirection :
    ∃ t, step ((session .done .encrypt).withPending 0) = .next t ∧
      ((session .done .encrypt).withPending 0).inSession ∧ t.inSession :=
  ⟨_, rfl, by simp [State.inSession, session], by simp [State.inSession, session]⟩

/-- A CLEAR in a session. -/
theorem witness_SessionEndsZeroized :
    ∃ t, step ((session .done .encrypt).withPending 0xB) = .next t ∧
      ((session .done .encrypt).withPending 0xB).inSession ∧ ¬ t.inSession :=
  ⟨_, rfl, by simp [State.inSession, session], by simp [State.inSession]⟩

/-- OVERRUN set by a write while busy, and cleared by CLEAR and by the reset input. -/
theorem witness_OverrunIsSticky :
    (∃ t, step { State.reset with busy := true, latLeft := 1, hostQueue := [wr 0x1FC 0] } = .next t ∧
      t.overrun = true) ∧
    (∃ t, step ({ State.reset with overrun := true }.withPending 0xB) = .next t ∧ t.overrun = false) ∧
    (∃ t, step { State.reset with overrun := true, hostQueue := [.reset] } = .next t ∧ t.overrun = false) :=
  ⟨⟨_, rfl, rfl⟩, ⟨_, rfl, rfl⟩, ⟨_, rfl, rfl⟩⟩

/-- Two sessions with different keys and permutation states that agree on what is visible. -/
theorem witness_SecretsAreNotReadable :
    agreeOnVisible (session .aadStart .encrypt) { session .aadStart .encrypt with
      key := Words8.zero, perm := SparkleState.zero } := by
  refine ⟨rfl, ?_, ?_⟩ <;> intro h <;> exact absurd h (by decide)

/-- Two sessions with different data, one VERIFY and one other command. -/
theorem witness_ControlIsIndependentOfData :
    agreeOnControl (session .done .decrypt) { session .done .decrypt with tagin := ascending } ∧
    (∃ s', exec .nop (session .done .decrypt) = .next s') ∧
    (∃ s', exec .verify { session .done .decrypt with phase := .idle } = .next s') := by
  refine ⟨rfl, ⟨_, rfl⟩, ⟨_, rfl⟩⟩

/-- A busy core whose host polls, writes and reads in the meantime. -/
theorem witness_StartedCommandCompletes :
    let s : State := { State.reset with
      busy := true, latLeft := 3, pending := 0x000C002A, hostQueue := [.poll, wr 0x040 5, rd 0x0E0, .idle] }
    s.busy = true ∧ decodeWord s.pending = .ok (.perm 2 12) ∧
      ∀ e ∈ s.hostQueue, e.wellFormed = true ∧ e ≠ .reset := by decide
theorem witness_DoCommandEnds :
    let s : State := { State.reset with hostQueue := doEvents (.perm 2 12) ++ [rd 0x040] }
    (Instr.perm 2 12).wellFormed = true ∧ s.busy = false ∧ s.latLeft = 0 ∧
      s.hostQueue = doEvents (.perm 2 12) ++ [rd 0x040] := by decide

/-- An AAD of two blocks. -/
theorem witness_AadSequencesAreChunkings :
    (session .aadStart .encrypt).phase = .aadStart ∧
    ∀ c ∈ [Instr.aadBlock, .aadFinal 32], c = .aadBlock ∨ ∃ len, c = .aadFinal len := by
  refine ⟨rfl, ?_⟩
  intro c hc
  simp only [List.mem_cons, List.not_mem_nil, or_false] at hc
  rcases hc with rfl | rfl
  · exact .inl rfl
  · exact .inr ⟨32, rfl⟩

/-- Each shape the data may have: an empty message, one block, and a block with a final one. -/
theorem witness_DataSequencesAreChunkings :
    (session .aadStart .encrypt).phase = .aadStart ∧ (session .dataStart .decrypt).phase = .dataStart ∧
    (acceptAll [.encFinal 0] (session .aadStart .encrypt)).isSome = true ∧
    (acceptAll [.decBlock, .decFinal 32] (session .dataStart .decrypt)).isSome = true ∧
    acceptAll [.decBlock, .decFinal 0] (session .dataStart .decrypt) = none ∧
    acceptAll [.encFinal 0] { session .aadStart .encrypt with skipEmptyData := true } = none := by decide +kernel
theorem witness_WholeCalls : loaded.phase = .idle ∧ loaded.busy = false := by decide

end Sys2Proof.Machine.Tests
end

section
/-!
The report of a completion (10_state.md R35, R37): what VERIFY's byte comparison decides, that VERIFY alone can
leave AUTH_OK set, and the values after reset (R43).
-/

namespace Sys2Proof.Machine

/-! ### VERIFY's comparison (41_sponge.md R194) -/

/-- An OR accumulated over a list is zero exactly if it starts at zero and every term is zero. -/
theorem foldl_or_eq_zero_iff {w : Nat} (f : Nat → BitVec w) (l : List Nat) (a : BitVec w) :
    l.foldl (fun acc k => acc ||| f k) a = 0 ↔ a = 0 ∧ ∀ k ∈ l, f k = 0 := by
  induction l generalizing a with
  | nil => simp
  | cons k l ih => rw [List.foldl_cons, ih]; simp [and_assoc]

/-- VERIFY's accumulator is zero exactly for equal tags. -/
theorem tagDifference_eq_zero_iff (t u : Words8) : tagDifference t u = 0 ↔ t = u := by
  unfold tagDifference
  rw [foldl_or_eq_zero_iff]
  constructor
  · rintro ⟨-, h⟩
    exact ext_byteAt fun n hn => BitVec.xor_eq_zero_iff.mp (h n (List.mem_range.mpr hn))
  · rintro rfl
    simp

/-- A buffer is the capacity exactly if it agrees with it word by word (41_sponge.md R192). -/
theorem capacityWords_eq_iff (p : SparkleState) (v : Words8) :
    capacityWords p = v ↔ ∀ k, k < 8 → v.get k = flatWord p (8 + k) := by
  constructor
  · rintro rfl k hk
    exact Words8.get_ofFn _ hk
  · intro h
    exact Words8.ext_get fun k hk => (Words8.get_ofFn _ hk).trans (h k hk).symm

/-- Everything VERIFY can answer: it is refused outside DONE of a decrypt session, and otherwise ends the session
with AUTH_OK or with AUTH. -/
theorem execVerify_eq_next {s t : State} :
    execVerify s = .next t ↔
      (¬ (s.phase = .done ∧ s.dir = .decrypt) ∧ t = s.raiseError .sequence) ∨
      (s.phase = .done ∧ s.dir = .decrypt ∧ capacityWords s.perm = s.tagin ∧
        t = s.clearAuth.zeroize.setAuth.succeed) ∨
      (s.phase = .done ∧ s.dir = .decrypt ∧ capacityWords s.perm ≠ s.tagin ∧
        t = s.clearAuth.zeroize.raiseError .auth) := by
  simp only [execVerify, require_eq_next, ne_eq, ite_not, tagDifference_eq_zero_iff]
  by_cases hp : s.phase = .done ∧ s.dir = .decrypt
  · by_cases ht : capacityWords s.perm = s.tagin <;> simp [hp, ht, eq_comm (b := t)]
  · have hc : (s.phase == .done && s.dir == .decrypt) = false := by simpa using hp
    simp only [hc, hp]
    tauto

/-! ### The commands other than VERIFY (42_control.md R230) -/

/-- The answer is a completed state, BUSY = 0, without the report of a matching tag. -/
def CompletesWithoutAuth (r : Result) : Prop := ∃ t, r = .next t ∧ t.busy = false ∧ t.authOk = false

/-- A failed check takes an error, which reports no matching tag. -/
theorem CompletesWithoutAuth.require {r : Result} (h : CompletesWithoutAuth r) (c : Bool) (e : ErrCode)
    (s : State) : CompletesWithoutAuth (require c e s r) := by
  cases c with
  | true => exact h
  | false => exact ⟨s.raiseError e, rfl, s.raiseError_busy e, s.raiseError_authOk e⟩

/-- Every command but VERIFY completes with AUTH_OK = 0: `AUTH_OK <- 0` comes before its body. -/
theorem exec_completesWithoutAuth {i : Instr} (hi : i ≠ .verify) (s : State) :
    CompletesWithoutAuth (exec i s) := by
  cases i with
  | nop => exact ⟨_, rfl, rfl, rfl⟩
  | init dir => exact .require (.require ⟨_, rfl, rfl, rfl⟩ _ _ _) _ _ _
  | aadBlock => exact .require ⟨_, rfl, rfl, rfl⟩ _ _ _
  | aadFinal len => exact .require (.require ⟨_, rfl, rfl, rfl⟩ _ _ _) _ _ _
  | encBlock => exact .require ⟨_, rfl, rfl, rfl⟩ _ _ _
  | encFinal len => exact .require (.require ⟨_, rfl, rfl, rfl⟩ _ _ _) _ _ _
  | decBlock => exact .require ⟨_, rfl, rfl, rfl⟩ _ _ _
  | decFinal len => exact .require (.require ⟨_, rfl, rfl, rfl⟩ _ _ _) _ _ _
  | finalize => exact .require ⟨_, rfl, rfl, rfl⟩ _ _ _
  | verify => exact absurd rfl hi
  | perm nb steps => exact .require (.require (.require ⟨_, rfl, rfl, rfl⟩ _ _ _) _ _ _) _ _ _
  | clear => exact ⟨_, rfl, rfl, rfl⟩

/-! ### The report of every command -/

/-- A command that completes leaves BUSY = 0, and AUTH_OK = 1 exactly if it is a VERIFY that is accepted and
finds the tags equal. -/
theorem exec_report {i : Instr} {s t : State} (h : exec i s = .next t) :
    t.busy = false ∧
    (t.authOk = true ↔
      i = .verify ∧ s.phase = .done ∧ s.dir = .decrypt ∧ capacityWords s.perm = s.tagin) := by
  by_cases hi : i = .verify
  · subst hi
    have hv : execVerify s = .next t := h
    rcases execVerify_eq_next.mp hv with ⟨hp, rfl⟩ | ⟨hp, hd, ht, rfl⟩ | ⟨hp, hd, ht, rfl⟩
    · simpa using fun hphase hdir _ => hp ⟨hphase, hdir⟩
    · simp [hp, hd, ht]
    · simp [ht]
  · obtain ⟨u, hu, hbusy, hauth⟩ := exec_completesWithoutAuth hi s
    obtain rfl : u = t := Host.Outcome.next.inj (hu.symm.trans h)
    simp [hbusy, hauth, hi]

/-- Settles O35, by what a step that completes a word can do: a command, whose report is `exec_report`, or
ILLEGAL. -/
theorem resultReport : Obligations.ResultReport := by
  intro s t hc hs
  rcases step_eq_next hs with ⟨-, i, hi, he⟩ | ⟨-, hi, rfl⟩ | ⟨hc', -⟩
  · obtain ⟨hbusy, hauth⟩ := exec_report he
    rw [hi, Option.some.injEq, ← capacityWords_eq_iff]
    exact ⟨hbusy, hauth⟩
  · simp [hi]
  · exact absurd hc (by simp [hc'])

/-! ### Reset (10_state.md R43) -/

/-- After reset everything that zeroize clears is clear. -/
theorem reset_zeroized : State.reset.zeroized := ⟨rfl, rfl, rfl, rfl, rfl, rfl, rfl, rfl, rfl, rfl⟩

/-- After reset every bit of STATUS is 0. -/
theorem statusWord_reset : statusWord State.reset = 0 := by decide

/-- Settles O37, field by field. -/
theorem resetValues : Obligations.ResetValues :=
  ⟨reset_zeroized, rfl, rfl, rfl, rfl, rfl, statusWord_reset⟩

end Sys2Proof.Machine
end

section
/-!
The host port while BUSY = 0 (20_memory.md R61 to R74): which register an offset names, what one access does as a
step of the machine, and so what a read of each register returns and a write to it changes.
-/

namespace Sys2Proof.Machine

/-! ### The flat words of the permutation state (10_state.md R20) -/

/-- The even flat words are the `x` halves of the branches. -/
theorem flatWord_even (p : SparkleState) (i : Nat) : flatWord p (2 * i) = p.x.get i := by
  simp [flatWord]

/-- The odd flat words are the `y` halves of the branches. -/
theorem flatWord_odd (p : SparkleState) (i : Nat) : flatWord p (2 * i + 1) = p.y.get i := by
  simp [flatWord, Nat.mul_add_div]

/-- Writing an even flat word writes an `x` half. -/
theorem setFlatWord_even (p : SparkleState) (i : Nat) (v : Word) :
    setFlatWord p (2 * i) v = { p with x := p.x.set i v } := by
  simp [setFlatWord]

/-- Writing an odd flat word writes a `y` half. -/
theorem setFlatWord_odd (p : SparkleState) (i : Nat) (v : Word) :
    setFlatWord p (2 * i + 1) v = { p with y := p.y.set i v } := by
  simp [setFlatWord, Nat.mul_add_div]

/-! ### The register map, word by word and in its gaps (20_memory.md R62) -/

theorem regAt_state {k : Nat} (hk : k < 16) : regAt (0x040 + 4 * k) = .state ⟨k, hk⟩ :=
  (by decide : ∀ k : Fin 16, regAt (0x040 + 4 * k) = .state k) ⟨k, hk⟩

/-- `x[i]` is word `2i` of the STATE window (20_memory.md R66). -/
theorem regAt_state_x {i : Nat} (hi : i < 8) : regAt (0x040 + 8 * i) = .state ⟨2 * i, by omega⟩ := by
  rw [show 0x040 + 8 * i = 0x040 + 4 * (2 * i) by omega, regAt_state]

/-- `y[i]` is word `2i + 1` of the STATE window (20_memory.md R66). -/
theorem regAt_state_y {i : Nat} (hi : i < 8) : regAt (0x044 + 8 * i) = .state ⟨2 * i + 1, by omega⟩ := by
  rw [show 0x044 + 8 * i = 0x040 + 4 * (2 * i + 1) by omega, regAt_state]

theorem regAt_key {k : Nat} (hk : k < 8) : regAt (0x080 + 4 * k) = .key ⟨k, hk⟩ :=
  (by decide : ∀ k : Fin 8, regAt (0x080 + 4 * k) = .key k) ⟨k, hk⟩

theorem regAt_nonce {k : Nat} (hk : k < 8) : regAt (0x0A0 + 4 * k) = .nonce ⟨k, hk⟩ :=
  (by decide : ∀ k : Fin 8, regAt (0x0A0 + 4 * k) = .nonce k) ⟨k, hk⟩

theorem regAt_din {k : Nat} (hk : k < 8) : regAt (0x0C0 + 4 * k) = .din ⟨k, hk⟩ :=
  (by decide : ∀ k : Fin 8, regAt (0x0C0 + 4 * k) = .din k) ⟨k, hk⟩

theorem regAt_dout {k : Nat} (hk : k < 8) : regAt (0x0E0 + 4 * k) = .dout ⟨k, hk⟩ :=
  (by decide : ∀ k : Fin 8, regAt (0x0E0 + 4 * k) = .dout k) ⟨k, hk⟩

theorem regAt_tag {k : Nat} (hk : k < 8) : regAt (0x100 + 4 * k) = .tag ⟨k, hk⟩ :=
  (by decide : ∀ k : Fin 8, regAt (0x100 + 4 * k) = .tag k) ⟨k, hk⟩

theorem regAt_tagin {k : Nat} (hk : k < 8) : regAt (0x120 + 4 * k) = .tagin ⟨k, hk⟩ :=
  (by decide : ∀ k : Fin 8, regAt (0x120 + 4 * k) = .tagin k) ⟨k, hk⟩

/-- The two gaps of the map, after STATUS and after TAGIN. -/
theorem regAt_reserved {off : Nat} (h : (0x008 ≤ off ∧ off < 0x040) ∨ 0x140 ≤ off) : regAt off = .reserved := by
  rcases h with ⟨hlo, hhi⟩ | hlo
  · simp (disch := omega) only [regAt, if_pos, if_neg]
  · simp (disch := omega) only [regAt, if_neg]

/-- An aligned offset in an eight-word register array is the offset of one of its words. -/
theorem exists_word_of_aligned {base off : Nat} (hbase : base % 4 = 0) (hoff : off % 4 = 0) (hlo : base ≤ off)
    (hhi : off < base + 32) : ∃ k, k < 8 ∧ off = base + 4 * k :=
  ⟨(off - base) / 4, by omega, by omega⟩

/-! ### The registers that hide their words, and those that ignore writes -/

/-- KEY and NONCE read 0 (20_memory.md R67). -/
theorem readReg_key_nonce {off : Nat} (s : State) (hoff : off % 4 = 0) (hlo : 0x080 ≤ off) (hhi : off < 0x0C0) :
    readReg s (regAt off) = 0 := by
  rcases Nat.lt_or_ge off 0x0A0 with h | h
  · obtain ⟨k, hk, rfl⟩ := exists_word_of_aligned (by decide) hoff hlo h
    rw [regAt_key hk, readReg]
  · obtain ⟨k, hk, rfl⟩ := exists_word_of_aligned (by decide) hoff h hhi
    rw [regAt_nonce hk, readReg]

/-- TAGIN and the gap after it read 0 (20_memory.md R71, R74). -/
theorem readReg_from_tagin {off : Nat} (s : State) (hoff : off % 4 = 0) (hlo : 0x120 ≤ off) :
    readReg s (regAt off) = 0 := by
  rcases Nat.lt_or_ge off 0x140 with h | h
  · obtain ⟨k, hk, rfl⟩ := exists_word_of_aligned (by decide) hoff hlo h
    rw [regAt_tagin hk, readReg]
  · rw [regAt_reserved (.inr h), readReg]

/-- TAG shows the capacity exactly in DONE of an encrypt session (20_memory.md R70). -/
theorem tagVisible_iff (s : State) : tagVisible s = true ↔ s.phase = .done ∧ s.dir = .encrypt := by
  simp [tagVisible]

/-- A write to STATUS, DOUT, TAG or a gap of the map is ignored (20_memory.md R69, R70, R73, R74). -/
theorem writeReg_ignored {off : Nat} (s : State) (v : Word) (hoff : off % 4 = 0)
    (h : (0x004 ≤ off ∧ off < 0x040) ∨ (0x0E0 ≤ off ∧ off < 0x120) ∨ 0x140 ≤ off) :
    writeReg s v (regAt off) = s := by
  rcases h with ⟨hlo, hhi⟩ | ⟨hlo, hhi⟩ | hlo
  · obtain rfl | hlo : off = 0x004 ∨ 0x008 ≤ off := by omega
    · rfl
    · rw [regAt_reserved (.inl ⟨hlo, hhi⟩), writeReg]
  · rcases Nat.lt_or_ge off 0x100 with h | h
    · obtain ⟨k, hk, rfl⟩ := exists_word_of_aligned (by decide) hoff hlo h
      rw [regAt_dout hk, writeReg]
    · obtain ⟨k, hk, rfl⟩ := exists_word_of_aligned (by decide) hoff h hhi
      rw [regAt_tag hk, writeReg]
  · rw [regAt_reserved (.inr hlo), writeReg]

/-! ### What the host still does is not visible at a register -/

theorem readReg_hostQueue (s : State) (q : List HostEvent) (r : Reg) :
    readReg { s with hostQueue := q } r = readReg s r := by
  cases r <;> rfl

theorem writeReg_hostQueue (s : State) (q : List HostEvent) (v : Word) (r : Reg) :
    writeReg { s with hostQueue := q } v r = { writeReg s v r with hostQueue := q } := by
  cases r with
  | cmd | status | reserved | din | dout | tag | tagin => rfl
  | state k | key k | nonce k => by_cases h : s.phase = .idle <;> simp [writeReg, h]

/-! ### One access as a step -/

/-- With no latency left, a cycle changes nothing of the core by itself. -/
theorem State.tick_of_latLeft_zero {s : State} (h : s.latLeft = 0) : s.tick = s := by
  rw [State.tick, show s.latLeft - 1 = s.latLeft by omega]

/-- While BUSY = 0 no command completes (42_control.md R230). -/
theorem completesNow_of_not_busy {s : State} (h : s.busy = false) : completesNow s = false := by
  simp [completesNow, h]

/-- While BUSY = 0 the step is the host's next access. -/
theorem step_of_access {s : State} {a : Access} {rest : List HostEvent} (hbusy : s.busy = false)
    (hlat : s.latLeft = 0) (hq : s.hostQueue = .access a :: rest) :
    step s = hostAccess a { s with hostQueue := rest } := by
  rw [step_of_cycle (completesNow_of_not_busy hbusy), hostCycle, hq, State.tick_of_latLeft_zero hlat]
  rfl

/-- While BUSY = 0 a read returns the register's value and changes nothing but the host's record of it. -/
theorem State.hostRead_of_not_busy {s : State} (h : s.busy = false) (off : Nat) :
    s.hostRead off = { s with reads := ⟨off, readReg s (regAt off)⟩ :: s.reads } := by
  simp [State.hostRead, readValue, readIsFree, h]

/-- While BUSY = 0 a write reaches the register. -/
theorem State.hostWrite_of_not_busy {s : State} (h : s.busy = false) (off : Nat) (v : Word) :
    s.hostWrite off v = writeReg s v (regAt off) := by
  simp [State.hostWrite, h]

/-- One aligned 32-bit beat is a word access (20_memory.md R63). -/
theorem Access.isWord_of_aligned {off : Nat} (h : off % 4 = 0) (op : AccessOp) :
    (Access.mk off 4 1 op).isWord = true := by
  simp [Access.isWord, h]

/-- A host read while BUSY = 0. -/
theorem step_of_read {s : State} {off : Nat} {rest : List HostEvent} (hbusy : s.busy = false)
    (hlat : s.latLeft = 0) (hoff : off % 4 = 0) (hwin : off < 0x200)
    (hq : s.hostQueue = .access ⟨off, 4, 1, .read⟩ :: rest) :
    step s = .next { s with hostQueue := rest, reads := ⟨off, readReg s (regAt off)⟩ :: s.reads } := by
  rw [step_of_access hbusy hlat hq, ← readReg_hostQueue s rest]
  exact hostAccess_eq_next.mpr
    ⟨hwin, Access.isWord_of_aligned hoff _,
      .inl ⟨rfl, (State.hostRead_of_not_busy (s := { s with hostQueue := rest }) hbusy off).symm⟩⟩

/-- A host write while BUSY = 0. -/
theorem step_of_write {s : State} {off : Nat} {v : Word} {rest : List HostEvent} (hbusy : s.busy = false)
    (hlat : s.latLeft = 0) (hoff : off % 4 = 0) (hwin : off < 0x200)
    (hq : s.hostQueue = .access ⟨off, 4, 1, .write v⟩ :: rest) :
    step s = .next { writeReg s v (regAt off) with hostQueue := rest } := by
  rw [step_of_access hbusy hlat hq, ← writeReg_hostQueue s rest]
  exact hostAccess_eq_next.mpr
    ⟨hwin, Access.isWord_of_aligned hoff _,
      .inr ⟨v, rfl, (State.hostWrite_of_not_busy (s := { s with hostQueue := rest }) hbusy off v).symm⟩⟩

/-- Settles O39: the step is one `readReg` or `writeReg` (`step_of_read`, `step_of_write`), whose register the map
names clause by clause. -/
theorem registerAccesses : Obligations.RegisterAccesses := by
  intro s rest off hbusy hlat hoff hwin
  refine ⟨fun hq => ⟨readReg s (regAt off), step_of_read hbusy hlat hoff hwin hq,
      ?cmd, ?status, ?gap, ?stateX, ?stateY, readReg_key_nonce s hoff, ?din, ?dout, ?tag, readReg_from_tagin s hoff⟩,
    fun v hq => ⟨writeReg s v (regAt off), step_of_write hbusy hlat hoff hwin hq,
      ?cmdW, writeReg_ignored s v hoff, ?stateXW, ?stateYW, ?keyW, ?nonceW, ?dinW, ?taginW⟩⟩
  case cmd | status | cmdW => rintro rfl; rfl
  case gap => intro hlo hhi; rw [regAt_reserved (.inl ⟨hlo, hhi⟩), readReg]
  case stateX => rintro i hi rfl; rw [regAt_state_x hi, readReg, flatWord_even]
  case stateY => rintro i hi rfl; rw [regAt_state_y hi, readReg, flatWord_odd]
  case din => rintro k hk rfl; rw [regAt_din hk, readReg]
  case dout => rintro k hk rfl; rw [regAt_dout hk, readReg]
  case tag => rintro k hk rfl; simp only [regAt_tag hk, readReg, tagVisible_iff]
  case stateXW => rintro i hi rfl; rw [regAt_state_x hi, writeReg, setFlatWord_even]
  case stateYW => rintro i hi rfl; rw [regAt_state_y hi, writeReg, setFlatWord_odd]
  case keyW => rintro k hk rfl; rw [regAt_key hk, writeReg, setMaskBit]
  case nonceW => rintro k hk rfl; rw [regAt_nonce hk, writeReg, setMaskBit]
  case dinW => rintro k hk rfl; rw [regAt_din hk, writeReg]
  case taginW => rintro k hk rfl; rw [regAt_tagin hk, writeReg]

end Sys2Proof.Machine
end

section
/-!
Decoding follows the opcode table (30_encoding.md R101): equal words have equal fields, so a row covers a word
field by field; the decoder answers the command whose row covers the word, with the fields of the word; and the
completion of a pending word raises ILLEGAL exactly if there is no such command.
-/

namespace Sys2Proof

/-! ### A word is its fields (30_encoding.md R91) -/

/-- Every bit of a command word is in one of the four fields or reserved. -/
theorem bit_in_field_or_reserved : ∀ i : Fin 32,
    i.val < 4 ∨ (4 ≤ i.val ∧ i.val < 6) ∨ (8 ≤ i.val ∧ i.val < 14) ∨ (16 ≤ i.val ∧ i.val < 24) ∨
      reservedMask.getLsbD i = true := by decide

/-- Two words that agree on a field agree on each bit of the field. -/
theorem getLsbD_eq_of_field_eq {v w : Word} {start len i : Nat}
    (h : v.extractLsb' start len = w.extractLsb' start len) (hlo : start ≤ i) (hhi : i < start + len) :
    v.getLsbD i = w.getLsbD i := by
  have hbit := congrArg (·.getLsbD (i - start)) h
  simpa [show i - start < len by omega, Nat.add_sub_cancel' hlo] using hbit

/-- Words are equal exactly if their fields and their reserved bits are. -/
theorem word_eq_iff_fields (v w : Word) :
    v = w ↔ opField v = opField w ∧ nbField v = nbField w ∧ lenField v = lenField w ∧
      stepsField v = stepsField w ∧ v &&& reservedMask = w &&& reservedMask := by
  constructor
  · rintro rfl
    exact ⟨rfl, rfl, rfl, rfl, rfl⟩
  · rintro ⟨hop, hnb, hlen, hsteps, hres⟩
    refine BitVec.eq_of_getLsbD_eq fun i hi => ?_
    rcases bit_in_field_or_reserved ⟨i, hi⟩ with h | ⟨hlo, hhi⟩ | ⟨hlo, hhi⟩ | ⟨hlo, hhi⟩ | h
    · exact getLsbD_eq_of_field_eq hop (by omega) (by omega)
    · exact getLsbD_eq_of_field_eq hnb hlo hhi
    · exact getLsbD_eq_of_field_eq hlen hlo hhi
    · exact getLsbD_eq_of_field_eq hsteps hlo hhi
    · have hbit := congrArg (·.getLsbD i) hres
      simpa [show reservedMask.getLsbD i = true from h] using hbit

/-! ### Matching a row of the table (30_encoding.md R101) -/

/-- Every row fixes the whole of OP and the reserved bits, these to 0, and fixes no bit of another field to 1. -/
theorem opcodeRows_fixed_bits : ∀ r ∈ opcodeRows,
    opField r.mask = BitVec.allOnes 4 ∧ r.mask &&& reservedMask = reservedMask ∧
    r.pattern &&& reservedMask = 0 ∧ nbField r.pattern = 0 ∧ lenField r.pattern = 0 ∧ stepsField r.pattern = 0 := by
  decide

/-- The bits of NB, LEN and STEPS that a row's mask fixes are zero in the word. -/
def FixedZero (mask w : Word) : Prop :=
  nbField w &&& nbField mask = 0 ∧ lenField w &&& lenField mask = 0 ∧ stepsField w &&& stepsField mask = 0

/-- A row covers the words with its OP whose reserved bits are zero, as are the bits of each field that the row
fixes. -/
theorem covers_iff {r : OpcodeRow} (hr : r ∈ opcodeRows) (w : Word) :
    r.covers w = true ↔
      opField w = opField r.pattern ∧ w &&& reservedMask = 0 ∧ FixedZero r.mask w := by
  obtain ⟨hop, hresMask, hresPattern, hnb, hlen, hsteps⟩ := opcodeRows_fixed_bits r hr
  rw [OpcodeRow.covers, beq_iff_eq, word_eq_iff_fields, BitVec.and_assoc, hresMask, hresPattern, hnb, hlen, hsteps]
  have hopAnd : opField (w &&& r.mask) = opField w := by
    rw [opField, BitVec.extractLsb'_and, ← opField, ← opField, hop, BitVec.and_allOnes]
  rw [hopAnd]
  simp only [FixedZero, nbField, lenField, stepsField, BitVec.extractLsb'_and]
  tauto

/-- The bit beside DIR is the part of the NB field that INIT does not use. -/
theorem nbField_and_two_eq_zero_iff (w : Word) : nbField w &&& 2 = 0 ↔ w.extractLsb' 5 1 = 0 := by
  have hbit : w.extractLsb' 5 1 = (nbField w).extractLsb' 1 1 := by
    ext i hi
    obtain rfl : i = 0 := by omega
    simp [nbField]
  rw [hbit]
  generalize nbField w = nb
  revert nb
  decide

/-- The mask of a command without fields fixes all fields. -/
theorem fixedZero_of_no_field (w : Word) :
    FixedZero 0xFFFFFFFF w ↔ nbField w = 0 ∧ lenField w = 0 ∧ stepsField w = 0 := by
  have hnb : nbField 0xFFFFFFFF = BitVec.allOnes 2 := by decide
  have hlen : lenField 0xFFFFFFFF = BitVec.allOnes 6 := by decide
  have hsteps : stepsField 0xFFFFFFFF = BitVec.allOnes 8 := by decide
  rw [FixedZero, hnb, hlen, hsteps, BitVec.and_allOnes, BitVec.and_allOnes, BitVec.and_allOnes]

/-- INIT's mask leaves DIR free. -/
theorem fixedZero_of_dir (w : Word) :
    FixedZero 0xFFFFFFEF w ↔ w.extractLsb' 5 1 = 0 ∧ lenField w = 0 ∧ stepsField w = 0 := by
  have hnb : nbField 0xFFFFFFEF = 2 := by decide
  have hlen : lenField 0xFFFFFFEF = BitVec.allOnes 6 := by decide
  have hsteps : stepsField 0xFFFFFFEF = BitVec.allOnes 8 := by decide
  rw [FixedZero, hnb, hlen, hsteps, BitVec.and_allOnes, BitVec.and_allOnes, nbField_and_two_eq_zero_iff]

/-- The mask of a command with a length leaves LEN free. -/
theorem fixedZero_of_len (w : Word) : FixedZero 0xFFFFC0FF w ↔ nbField w = 0 ∧ stepsField w = 0 := by
  have hnb : nbField 0xFFFFC0FF = BitVec.allOnes 2 := by decide
  have hlen : lenField 0xFFFFC0FF = 0#6 := by decide
  have hsteps : stepsField 0xFFFFC0FF = BitVec.allOnes 8 := by decide
  rw [FixedZero, hnb, hlen, hsteps, BitVec.and_allOnes, BitVec.and_allOnes, BitVec.and_zero]
  simp

/-- PERM's mask leaves NB and STEPS free. -/
theorem fixedZero_of_perm (w : Word) : FixedZero 0xFF00FFCF w ↔ lenField w = 0 := by
  have hnb : nbField 0xFF00FFCF = 0#2 := by decide
  have hlen : lenField 0xFF00FFCF = BitVec.allOnes 6 := by decide
  have hsteps : stepsField 0xFF00FFCF = 0#8 := by decide
  rw [FixedZero, hnb, hlen, hsteps, BitVec.and_allOnes, BitVec.and_zero, BitVec.and_zero]
  simp

/-- No word matches two rows, for no two rows have the same OP. -/
theorem row_unique {r r' : OpcodeRow} {w : Word} (hr : r ∈ opcodeRows) (hr' : r' ∈ opcodeRows)
    (h : r.covers w = true) (h' : r'.covers w = true) : r = r' :=
  have hops : (opcodeRows.map fun r => opField r.pattern).Nodup := by decide
  List.inj_on_of_nodup_map hops hr hr'
    (((covers_iff hr w).mp h).1.symm.trans ((covers_iff hr' w).mp h').1)

/-! ### The row and the fields of a command -/

/-- The row of the table that stands for a command. -/
def Instr.row : Instr → OpcodeRow
  | .nop => opcodeRows[0]
  | .init _ => opcodeRows[1]
  | .aadBlock => opcodeRows[2]
  | .aadFinal _ => opcodeRows[3]
  | .encBlock => opcodeRows[4]
  | .encFinal _ => opcodeRows[5]
  | .decBlock => opcodeRows[6]
  | .decFinal _ => opcodeRows[7]
  | .finalize => opcodeRows[8]
  | .verify => opcodeRows[9]
  | .perm _ _ => opcodeRows[10]
  | .clear => opcodeRows[11]

/-- The OP code of a command (30_encoding.md R92). -/
def Instr.op : Instr → BitVec 4
  | .nop => 0x0
  | .init _ => 0x1
  | .aadBlock => 0x2
  | .aadFinal _ => 0x3
  | .encBlock => 0x4
  | .encFinal _ => 0x5
  | .decBlock => 0x6
  | .decFinal _ => 0x7
  | .finalize => 0x8
  | .verify => 0x9
  | .perm _ _ => 0xA
  | .clear => 0xB

/-- The fields of a command are those of the word, where the command has them (30_encoding.md R93 to R96). -/
def Instr.HasFieldsOf (w : Word) : Instr → Prop
  | .init dir => dir = dirOfBit (dirField w)
  | .aadFinal len | .encFinal len | .decFinal len => len = lenField w
  | .perm nb steps => nb = nbField w ∧ steps = stepsField w
  | .nop | .aadBlock | .encBlock | .decBlock | .finalize | .verify | .clear => True

theorem Instr.row_mem (i : Instr) : i.row ∈ opcodeRows := by
  cases i <;> exact List.getElem_mem _

theorem Instr.row_mnemonic (i : Instr) : i.row.mnemonic = i.mnemonic := by
  cases i <;> rfl

theorem Instr.row_op (i : Instr) : opField i.row.pattern = i.op := by
  cases i <;> rfl

/-- Of all commands PERM alone has the OP code 0xA. -/
theorem Instr.op_eq_perm_iff (i : Instr) : i.op = 0xA ↔ ∃ nb steps, i = .perm nb steps := by
  cases i <;> simp [Instr.op]

/-- Each row stands for a command, whatever the fields of the word are. -/
theorem exists_command_of_row {r : OpcodeRow} (hr : r ∈ opcodeRows) (w : Word) :
    ∃ i : Instr, i.row = r ∧ i.HasFieldsOf w := by
  simp only [opcodeRows, List.mem_cons, List.not_mem_nil, or_false] at hr
  rcases hr with rfl | rfl | rfl | rfl | rfl | rfl | rfl | rfl | rfl | rfl | rfl | rfl
  · exact ⟨.nop, rfl, trivial⟩
  · exact ⟨.init _, rfl, rfl⟩
  · exact ⟨.aadBlock, rfl, trivial⟩
  · exact ⟨.aadFinal _, rfl, rfl⟩
  · exact ⟨.encBlock, rfl, trivial⟩
  · exact ⟨.encFinal _, rfl, rfl⟩
  · exact ⟨.decBlock, rfl, trivial⟩
  · exact ⟨.decFinal _, rfl, rfl⟩
  · exact ⟨.finalize, rfl, trivial⟩
  · exact ⟨.verify, rfl, trivial⟩
  · exact ⟨.perm _ _, rfl, rfl, rfl⟩
  · exact ⟨.clear, rfl, trivial⟩

/-- Among the commands whose row covers the word, only PERM with NB = 3 is not well formed
(30_encoding.md R99). -/
theorem wellFormed_iff_of_covers {i : Instr} {w : Word} (hc : i.row.covers w = true) (hf : i.HasFieldsOf w) :
    i.wellFormed = true ↔ ¬ (w &&& 0xFF00FFCF = 0x0000000A ∧ nbField w = 3) := by
  have hop : opField w = i.op := ((covers_iff i.row_mem w).mp hc).1.trans i.row_op
  cases i with
  | perm nb steps =>
    obtain ⟨rfl, rfl⟩ := hf
    have hrow : w &&& 0xFF00FFCF = 0x0000000A := beq_iff_eq.mp hc
    rw [and_iff_right hrow, Instr.wellFormed, nbLegal, bne_iff_ne]
  | _ =>
    refine iff_of_true rfl fun ⟨hrow, _⟩ => ?_
    have hperm : opField w = 0xA := ((covers_iff (Instr.perm 0 0).row_mem w).mp (beq_iff_eq.mpr hrow)).1
    obtain ⟨nb, steps, h⟩ := (Instr.op_eq_perm_iff _).mp (hop.symm.trans hperm)
    cases h

/-! ### What the decoder answers (30_encoding.md R97 to R101) -/

theorem needZero_eq_ok {unused : Bool} {i j : Instr} :
    needZero unused i = .ok j ↔ unused = true ∧ i = j := by
  cases unused <;> simp [needZero]

/-- The fields that a command does not use are zero in the word (30_encoding.md R98). -/
def Instr.UnusedZero (w : Word) : Instr → Prop
  | .init _ => w.extractLsb' 5 1 = 0 ∧ lenField w = 0 ∧ stepsField w = 0
  | .aadFinal _ | .encFinal _ | .decFinal _ => nbField w = 0 ∧ stepsField w = 0
  | .perm _ _ => lenField w = 0
  | .nop | .aadBlock | .encBlock | .decBlock | .finalize | .verify | .clear =>
    nbField w = 0 ∧ lenField w = 0 ∧ stepsField w = 0

/-- A word matches a command's row exactly if it has the command's OP and no bit is set that is reserved or that
the command does not use. -/
theorem row_covers_iff (i : Instr) (w : Word) :
    i.row.covers w = true ↔ opField w = i.op ∧ w &&& reservedMask = 0 ∧ i.UnusedZero w := by
  rw [covers_iff i.row_mem, i.row_op]
  refine and_congr_right' (and_congr_right' ?_)
  cases i with
  | nop | aadBlock | encBlock | decBlock | finalize | verify | clear => exact fixedZero_of_no_field w
  | init dir => exact fixedZero_of_dir w
  | aadFinal len | encFinal len | decFinal len => exact fixedZero_of_len w
  | perm nb steps => exact fixedZero_of_perm w

/-- A set reserved bit is reported before anything else (30_encoding.md R97). -/
theorem decodeWord_of_reserved {w : Word} (h : w &&& reservedMask ≠ 0) : decodeWord w = .error .reservedBits :=
  if_pos h

/-- A word decodes only to a command with its OP and its fields. -/
theorem op_and_fields_of_decodeWord {w : Word} {i : Instr} (h : decodeWord w = .ok i) :
    opField w = i.op ∧ i.HasFieldsOf w := by
  by_cases hres : w &&& reservedMask = 0
  · simp only [decodeWord, hres, ne_eq, not_true_eq_false, if_false] at h
    split at h
    case h_13 => cases h
    case h_11 hop =>
      split at h
      · obtain ⟨-, rfl⟩ := needZero_eq_ok.mp h
        exact ⟨BitVec.eq_of_toNat_eq hop, rfl, rfl⟩
      · cases h
    all_goals
      obtain ⟨-, rfl⟩ := needZero_eq_ok.mp h
      exact ⟨BitVec.eq_of_toNat_eq (by assumption), by simp [Instr.HasFieldsOf]⟩
  · rw [decodeWord_of_reserved hres] at h
    cases h

/-- Whether a word decodes to the command with its OP and its fields. -/
theorem decodeWord_of_op_fields {w : Word} {i : Instr} (hop : opField w = i.op) (hf : i.HasFieldsOf w) :
    decodeWord w = .ok i ↔ w &&& reservedMask = 0 ∧ i.UnusedZero w ∧ i.wellFormed = true := by
  by_cases hres : w &&& reservedMask = 0
  · cases i with
    | perm nb steps =>
      obtain ⟨rfl, rfl⟩ := hf
      replace hop : opField w = 0xA := hop
      cases hnb : nbLegal (nbField w) <;>
        simp [decodeWord, hres, hop, hnb, needZero_eq_ok, Instr.UnusedZero, Instr.wellFormed]
    | init dir | aadFinal len | encFinal len | decFinal len =>
      subst hf
      simp [decodeWord, hres, hop, Instr.op, needZero_eq_ok, Instr.UnusedZero, Instr.wellFormed]
    | nop | aadBlock | encBlock | decBlock | finalize | verify | clear =>
      simp [decodeWord, hres, hop, Instr.op, needZero_eq_ok, Instr.UnusedZero, Instr.wellFormed]
  · simpa [decodeWord_of_reserved hres] using fun h => absurd h hres

/-- The decoder answers the commands that are well formed, whose row covers the word and whose fields are the
word's. -/
theorem decodeWord_eq_ok {w : Word} {i : Instr} :
    decodeWord w = .ok i ↔ i.row.covers w = true ∧ i.HasFieldsOf w ∧ i.wellFormed = true := by
  rw [row_covers_iff]
  constructor
  · intro h
    obtain ⟨hop, hf⟩ := op_and_fields_of_decodeWord h
    obtain ⟨hres, hz, hwf⟩ := (decodeWord_of_op_fields hop hf).mp h
    exact ⟨⟨hop, hres, hz⟩, hf, hwf⟩
  · rintro ⟨⟨hop, hres, hz⟩, hf, hwf⟩
    exact (decodeWord_of_op_fields hop hf).mpr ⟨hres, hz, hwf⟩

/-- A word decodes exactly if it matches a row and is not PERM with NB = 3. -/
theorem exists_decodeWord_iff (w : Word) :
    (∃ i, decodeWord w = .ok i) ↔
      (∃ r ∈ opcodeRows, r.covers w = true) ∧ ¬ (w &&& 0xFF00FFCF = 0x0000000A ∧ nbField w = 3) := by
  constructor
  · rintro ⟨i, h⟩
    obtain ⟨hc, hf, hwf⟩ := decodeWord_eq_ok.mp h
    exact ⟨⟨i.row, i.row_mem, hc⟩, (wellFormed_iff_of_covers hc hf).mp hwf⟩
  · rintro ⟨⟨r, hr, hc⟩, hperm⟩
    obtain ⟨i, rfl, hf⟩ := exists_command_of_row hr w
    exact ⟨i, decodeWord_eq_ok.mpr ⟨hc, hf, (wellFormed_iff_of_covers hc hf).mpr hperm⟩⟩

theorem dirOfBit_eq_decrypt_iff : ∀ b : BitVec 1, dirOfBit b = .decrypt ↔ b = 1 := by decide

namespace Machine

/-! ### The completion of a pending word (42_control.md R230, 60_exceptions.md R250) -/

theorem pendingCommand_eq_some {s : State} {i : Instr} :
    pendingCommand s = some i ↔ decodeWord s.pending = .ok i := by
  unfold pendingCommand
  split <;> simp_all

/-- The answer is a completed state whose ERR is not ILLEGAL. -/
def CompletesLegally (r : Result) : Prop := ∃ t, r = .next t ∧ t.err ≠ .illegal

theorem completesLegally_succeed (s : State) : CompletesLegally (.next s.succeed) :=
  ⟨_, rfl, by simp⟩

theorem completesLegally_raiseError (s : State) {e : ErrCode} (he : e ≠ .illegal) :
    CompletesLegally (.next (s.raiseError e)) :=
  ⟨_, rfl, by simpa using he⟩

/-- A check with another code than ILLEGAL completes legally in both outcomes. -/
theorem CompletesLegally.require {r : Result} (h : CompletesLegally r) (c : Bool) {e : ErrCode}
    (he : e ≠ .illegal) (s : State) : CompletesLegally (require c e s r) := by
  cases c with
  | true => exact h
  | false => exact completesLegally_raiseError s he

/-- No command that the encoding has completes with ILLEGAL: PERM's check of NB, the only one with that code,
holds. -/
theorem exec_completesLegally {i : Instr} (hi : i.wellFormed = true) (s : State) :
    CompletesLegally (exec i s) := by
  cases i with
  | nop | clear => exact completesLegally_succeed _
  | aadBlock | encBlock | decBlock | finalize =>
    exact .require (completesLegally_succeed _) _ (by decide) _
  | init | aadFinal | encFinal | decFinal =>
    exact .require (.require (completesLegally_succeed _) _ (by decide) _) _ (by decide) _
  | verify =>
    refine .require ?_ _ (by decide) _
    split
    · exact completesLegally_raiseError _ (by decide)
    · exact completesLegally_succeed _
  | perm nb steps =>
    have hnb : nbLegal nb = true := hi
    rw [exec, execPerm, hnb, require_true]
    exact .require (.require (completesLegally_succeed _) _ (by decide) _) _ (by decide) _

/-- A completion answers a next state, with ILLEGAL exactly if the pending word is no command. -/
theorem step_illegal_iff {s : State} (hc : completesNow s = true) :
    ∃ t, step s = .next t ∧ (t.err = .illegal ↔ ¬ ∃ i, decodeWord s.pending = .ok i) := by
  cases hp : pendingCommand s with
  | some i =>
    have hd := pendingCommand_eq_some.mp hp
    obtain ⟨-, -, hwf⟩ := decodeWord_eq_ok.mp hd
    obtain ⟨t, ht, herr⟩ := exec_completesLegally hwf s
    exact ⟨t, (step_of_command hc hp).trans ht, iff_of_false herr (not_not_intro ⟨i, hd⟩)⟩
  | none =>
    have hd : ¬ ∃ i, decodeWord s.pending = .ok i := by
      rintro ⟨i, hi⟩
      simp [pendingCommand_eq_some.mpr hi] at hp
    exact ⟨_, step_of_illegal hc hp, iff_of_true (s.raiseError_err _) hd⟩

/-- Settles O3: a word decodes to the command whose row covers it and whose fields it has (`decodeWord_eq_ok`), the
row is unique by its OP (`row_unique`), and ILLEGAL is the completion of every other word (`step_illegal_iff`). -/
theorem decodeFollowsOpcodeTable : Obligations.DecodeFollowsOpcodeTable := by
  intro w
  refine ⟨exists_decodeWord_iff w, ?mnemonic, fun r hr r' hr' => row_unique hr hr', ?dir, ?len, ?perm, ?illegal⟩
  case mnemonic =>
    intro i h
    exact ⟨i.row, i.row_mem, i.row_mnemonic, (decodeWord_eq_ok.mp h).1⟩
  case dir =>
    intro d h
    obtain ⟨-, rfl, -⟩ := decodeWord_eq_ok.mp h
    exact dirOfBit_eq_decrypt_iff (dirField w)
  case len =>
    rintro len (h | h | h) <;> exact (op_and_fields_of_decodeWord h).2
  case perm =>
    intro nb steps h
    obtain ⟨-, ⟨hnb, hsteps⟩, hwf⟩ := decodeWord_eq_ok.mp h
    exact ⟨hnb, bne_iff_ne.mp hwf, hsteps⟩
  case illegal =>
    rintro s hc rfl
    exact step_illegal_iff hc

end Machine

end Sys2Proof
end

section
/-!
The Sparkle permutation engine (40_permutation.md R130 to R141): the linearity of `ell`, Alzette's four rounds, and
every word after each part of the step.
-/

namespace Sys2Proof

/-- Where `f` answers the word of `v`, the buffer made of `f` reads as `v`; past index 7 both read 0. -/
theorem Words8.get_ofFn_eq_get {f : Nat → Word} {v : Words8} {j : Nat} (h : f j = v.get j) :
    (Words8.ofFn f).get j = v.get j := by
  by_cases hj : j < 8
  · rw [Words8.get_ofFn f hj, h]
  · rw [Words8.get_of_ge _ (by omega), Words8.get_of_ge _ (by omega)]

namespace Machine

/-! ### Rotation and `ell` (00_scope.md R11, 40_permutation.md R131) -/

/-- The model's rotation is the library's. -/
theorem rotr_eq_rotateRight (v : Word) {n : Nat} (hn : n < 32) : rotr v n = v.rotateRight n := by
  rw [rotr, BitVec.rotateRight, BitVec.rotateRightAux, Nat.mod_eq_of_lt hn]

@[simp] theorem rotr_zero (v : Word) : rotr v 0 = v := by
  simp [rotr]

/-- A rotation only moves bits, so it is linear over XOR. -/
theorem rotr_xor (a b : Word) {n : Nat} (hn : n < 32) : rotr (a ^^^ b) n = rotr a n ^^^ rotr b n := by
  simp only [rotr_eq_rotateRight _ hn]
  ext i hi
  simp only [BitVec.getElem_rotateRight, BitVec.getElem_xor]
  split <;> rfl

/-- `ell` is linear over XOR, as the shift and the rotation it is made of are. -/
theorem ell_xor (a b : Word) : ell (a ^^^ b) = ell a ^^^ ell b := by
  have hshift : (a ^^^ b) ^^^ (a ^^^ b) <<< 16 = (a ^^^ a <<< 16) ^^^ (b ^^^ b <<< 16) := by
    rw [BitVec.shiftLeft_xor_distrib]
    generalize a <<< 16 = a', b <<< 16 = b'
    ac_rfl
  rw [ell, hshift, rotr_xor _ _ (by decide), ← ell, ← ell]

/-- Settles O12: the formula is the definition, linearity is `ell_xor`, and the three values are evaluated. -/
theorem ellIsLinear : Obligations.EllIsLinear :=
  ⟨fun _ => rfl, by decide, ell_xor, by decide, by decide⟩

/-! ### The linear layer (40_permutation.md R138, R139) -/

/-- The Feistel pass writes the right half. -/
theorem feistelPass_get_right {nb i : Nat} (hnb : nb ≤ 8) (hi : i < nb / 2) (t : Word) (v : Words8) :
    (feistelPass nb t v).get (nb / 2 + i) = v.get (nb / 2 + i) ^^^ v.get i ^^^ t := by
  rw [feistelPass, Words8.get_ofFn _ (by omega), if_pos (by omega), Nat.add_sub_cancel_left]

/-- The Feistel pass leaves the left half and the words above the branches. -/
theorem feistelPass_get_of_not_right {nb j : Nat} (hj : ¬ (nb / 2 ≤ j ∧ j < nb)) (t : Word) (v : Words8) :
    (feistelPass nb t v).get j = v.get j :=
  Words8.get_ofFn_eq_get (if_neg hj)

/-- The left half after the branch rotation is the right half, one position on. -/
theorem rotateBranches_get_left {nb i : Nat} (hnb : nb ≤ 8) (hi : i < nb / 2) (v : Words8) :
    (rotateBranches nb v).get i = v.get (nb / 2 + (i + 1) % (nb / 2)) := by
  rw [rotateBranches, Words8.get_ofFn _ (by omega), if_pos hi]

/-- The right half after the branch rotation is the left half. -/
theorem rotateBranches_get_right {nb i : Nat} (hnb : nb ≤ 8) (hi : i < nb / 2) (v : Words8) :
    (rotateBranches nb v).get (nb / 2 + i) = v.get i := by
  rw [rotateBranches, Words8.get_ofFn _ (by omega), if_neg (by omega), if_pos (by omega),
    Nat.add_sub_cancel_left]

/-- The branch rotation leaves the words above the branches. -/
theorem rotateBranches_get_above {nb j : Nat} (hj : nb ≤ j) (v : Words8) :
    (rotateBranches nb v).get j = v.get j :=
  Words8.get_ofFn_eq_get ((if_neg (by omega)).trans (if_neg (by omega)))

/-- What the linear layer does to one array, `t` being `ell` of the other array's fold. -/
def layerArray (nb : Nat) (t : Word) (v : Words8) : Words8 := rotateBranches nb (feistelPass nb t v)

theorem linearLayer_x (nb : Nat) (p : SparkleState) :
    (linearLayer nb p).x = layerArray nb (ell (foldXor (nb / 2) p.y)) p.x := rfl

theorem linearLayer_y (nb : Nat) (p : SparkleState) :
    (linearLayer nb p).y = layerArray nb (ell (foldXor (nb / 2) p.x)) p.y := rfl

/-- The left half after the layer is the right half after the Feistel pass, one position on. -/
theorem layerArray_get_left {nb i : Nat} (hnb : nb ≤ 8) (hi : i < nb / 2) (t : Word) (v : Words8) :
    (layerArray nb t v).get i =
      v.get (nb / 2 + (i + 1) % (nb / 2)) ^^^ v.get ((i + 1) % (nb / 2)) ^^^ t := by
  have hr : (i + 1) % (nb / 2) < nb / 2 := Nat.mod_lt _ (by omega)
  rw [layerArray, rotateBranches_get_left hnb hi, feistelPass_get_right hnb hr]

/-- The right half after the layer is the old left half, which the Feistel pass does not write. -/
theorem layerArray_get_right {nb i : Nat} (hnb : nb ≤ 8) (hi : i < nb / 2) (t : Word) (v : Words8) :
    (layerArray nb t v).get (nb / 2 + i) = v.get i := by
  rw [layerArray, rotateBranches_get_right hnb hi, feistelPass_get_of_not_right (by omega)]

/-- The layer leaves the words above the branches. -/
theorem layerArray_get_above {nb j : Nat} (hj : nb ≤ j) (t : Word) (v : Words8) :
    (layerArray nb t v).get j = v.get j := by
  rw [layerArray, rotateBranches_get_above hj, feistelPass_get_of_not_right (by omega)]

/-- Settles O14: both arrays are `layerArray` of the other one's fold, whose words are the three lemmas above. -/
theorem linearLayerWords : Obligations.LinearLayerWords := by
  intro nb p hnb h tx ty q
  have hnb8 : nb ≤ 8 := by omega
  have hx : q.x = layerArray nb ty p.x := linearLayer_x nb p
  have hy : q.y = layerArray nb tx p.y := linearLayer_y nb p
  rw [hx, hy]
  refine ⟨fun i hi => ?halves, fun j hj => ?above⟩
  case halves =>
    exact ⟨layerArray_get_left hnb8 hi ty p.x, layerArray_get_right hnb8 hi ty p.x,
      layerArray_get_left hnb8 hi tx p.y, layerArray_get_right hnb8 hi tx p.y⟩
  case above =>
    exact ⟨layerArray_get_above hj ty p.x, layerArray_get_above hj tx p.y⟩

/-! ### Alzette (40_permutation.md R132, R134) -/

/-- One round, with the library's rotation. -/
theorem alzetteRound_eq (c x y : Word) {r₁ r₂ : Nat} (h₁ : r₁ < 32) (h₂ : r₂ < 32) :
    alzetteRound c (x, y) (r₁, r₂) =
      ((x + y.rotateRight r₁) ^^^ c, y ^^^ (x + y.rotateRight r₁).rotateRight r₂) := by
  rw [alzetteRound, rotr_eq_rotateRight _ h₁, rotr_eq_rotateRight _ h₂]

/-- The round without a rotation before the addition. -/
theorem alzetteRound_zero (c x y : Word) {r₂ : Nat} (h₂ : r₂ < 32) :
    alzetteRound c (x, y) (0, r₂) = ((x + y) ^^^ c, y ^^^ (x + y).rotateRight r₂) := by
  rw [alzetteRound, rotr_zero, rotr_eq_rotateRight _ h₂]

/-- Alzette is its four rounds in order. -/
theorem alzette_eq_rounds (c : Word) (b : Word × Word) :
    alzette c b =
      alzetteRound c (alzetteRound c (alzetteRound c (alzetteRound c b (31, 24)) (17, 17)) (0, 31)) (24, 16) := rfl

/-- Settles O10: Alzette round by round; the example is evaluated. -/
theorem alzetteRounds : Obligations.AlzetteRounds := by
  refine ⟨fun c x0 y0 => ?rounds, ?vector⟩
  case rounds =>
    intro x1 y1 x2 y2 x3 y3 x4 y4
    have round1 : alzetteRound c (x0, y0) (31, 24) = (x1 ^^^ c, y1) := alzetteRound_eq c _ _ (by decide) (by decide)
    have round2 : alzetteRound c (x1 ^^^ c, y1) (17, 17) = (x2 ^^^ c, y2) :=
      alzetteRound_eq c _ _ (by decide) (by decide)
    have round3 : alzetteRound c (x2 ^^^ c, y2) (0, 31) = (x3 ^^^ c, y3) := alzetteRound_zero c _ _ (by decide)
    have round4 : alzetteRound c (x3 ^^^ c, y3) (24, 16) = (x4 ^^^ c, y4) :=
      alzetteRound_eq c _ _ (by decide) (by decide)
    rw [alzette_eq_rounds, round1, round2, round3, round4]
  case vector => decide

/-! ### The step and the permutation (40_permutation.md R136, R137, R140, R141) -/

@[simp] theorem injectConstants_x (s : Nat) (p : SparkleState) : (injectConstants s p).x = p.x := rfl

/-- The round constant goes into `y[0]`. -/
theorem injectConstants_y_zero (s : Nat) (p : SparkleState) :
    (injectConstants s p).y.get 0 = p.y.get 0 ^^^ rcon.get (s % 8) := rfl

/-- The step index goes into `y[1]`. -/
theorem injectConstants_y_one (s : Nat) (p : SparkleState) :
    (injectConstants s p).y.get 1 = p.y.get 1 ^^^ BitVec.ofNat 32 s := rfl

/-- Constant injection leaves `y[2]` and the words after it. -/
theorem injectConstants_y_of_two_le (s : Nat) (p : SparkleState) {j : Nat} (hj : 2 ≤ j) :
    (injectConstants s p).y.get j = p.y.get j := by
  have hset (v : Words8) (k : Nat) (a : Word) (hk : k < 2) : (v.set k a).get j = v.get j :=
    Words8.get_ofFn_eq_get (if_neg (by omega))
  exact (hset _ 1 _ (by decide)).trans (hset _ 0 _ (by decide))

/-- Branch `j` after the Alzette layer. -/
theorem alzetteLayer_get (nb : Nat) (p : SparkleState) {j : Nat} (hj : j < 8) :
    ((alzetteLayer nb p).x.get j, (alzetteLayer nb p).y.get j) = alzetteBranch nb p j :=
  Prod.ext (Words8.get_ofFn _ hj) (Words8.get_ofFn _ hj)

/-- A branch index below 8 is its own residue, so each branch takes the constant of its own index. -/
theorem alzetteBranch_eq (nb : Nat) (p : SparkleState) {j : Nat} (hj : j < 8) :
    alzetteBranch nb p j =
      if j < nb then alzette (rcon.get j) (p.x.get j, p.y.get j) else (p.x.get j, p.y.get j) := by
  rw [alzetteBranch, Nat.mod_eq_of_lt hj]

/-- Settles O11: the words after injection and after the Alzette layer; the step and the permutation are the model's
own equations. -/
theorem sparkleSteps : Obligations.SparkleSteps := by
  intro nb p _
  refine ⟨fun s => ?inject, fun j hj => ?alzette, fun _ => rfl, rfl, fun _ => rfl⟩
  case inject =>
    exact ⟨fun j _ => by rw [injectConstants_x], injectConstants_y_zero s p, injectConstants_y_one s p,
      fun j hj _ => injectConstants_y_of_two_le s p hj⟩
  case alzette =>
    rw [alzetteLayer_get nb p hj, alzetteBranch_eq nb p hj]

end Machine

end Sys2Proof
end

section
/-!
The sponge on one block (41_sponge.md R171 to R178): the bytes and words of a padded block, every word after
`FeistelSwap` and after `Absorb`, and that decryption of a block absorbs what its encryption absorbed.
-/

namespace Sys2Proof.Machine

/-! ### The padded block (41_sponge.md R171) -/

/-- Word `j` of a buffer is `le32` of its bytes `4j..4j+3` (00_scope.md R13). -/
theorem get_eq_le32_bytes (v : Words8) {j : Nat} (hj : j < 8) :
    v.get j =
      le32 (byteAt v (4 * j)) (byteAt v (4 * j + 1)) (byteAt v (4 * j + 2)) (byteAt v (4 * j + 3)) := by
  conv_lhs => rw [← ofBytes_byteAt v]
  exact Words8.get_ofFn _ hj

/-- Byte `k` of `pad(B, L)`. -/
theorem byteAt_pad (b : Words8) (len : Nat) {k : Nat} (hk : k < 32) :
    byteAt (pad b len) k = if k < len then byteAt b k else if k = len then 0x80 else 0 :=
  byteAt_ofBytes _ hk

/-- The block's own bytes stand below the length. -/
theorem byteAt_pad_below (b : Words8) {len k : Nat} (hk : k < 32) (h : k < len) :
    byteAt (pad b len) k = byteAt b k := by
  rw [byteAt_pad b len hk, if_pos h]

/-- The padding byte stands at the length. -/
theorem byteAt_pad_at (b : Words8) {len : Nat} (h : len < 32) : byteAt (pad b len) len = 0x80 := by
  rw [byteAt_pad b len h, if_neg (Nat.lt_irrefl len), if_pos rfl]

/-- Zeros stand above the length. -/
theorem byteAt_pad_above (b : Words8) {len k : Nat} (hk : k < 32) (h : len < k) : byteAt (pad b len) k = 0 := by
  rw [byteAt_pad b len hk, if_neg (by omega), if_neg (by omega)]

/-- A full block is not padded. -/
theorem pad_full (b : Words8) : pad b 32 = b :=
  ext_byteAt fun _ hk => byteAt_pad_below b hk hk

/-- The padding reads only the bytes below the length. -/
theorem pad_congr {b c : Words8} {len : Nat} (h : ∀ k, k < 32 → k < len → byteAt b k = byteAt c k) :
    pad b len = pad c len := by
  refine ext_byteAt fun k hk => ?_
  by_cases hlen : k < len
  · rw [byteAt_pad_below b hk hlen, byteAt_pad_below c hk hlen, h k hk hlen]
  · rw [byteAt_pad b len hk, byteAt_pad c len hk, if_neg hlen, if_neg hlen]

/-- The padded empty block starts with the padding byte. -/
theorem pad_empty_get_zero (b : Words8) : (pad b 0).get 0 = 0x00000080 := by
  rw [get_eq_le32_bytes _ (by decide), byteAt_pad_at b (by decide), byteAt_pad_above b (by decide) (by decide),
    byteAt_pad_above b (by decide) (by decide), byteAt_pad_above b (by decide) (by decide)]
  decide

/-- The words of the padded empty block after the first are 0. -/
theorem pad_empty_get_of_pos (b : Words8) {j : Nat} (hj : 1 ≤ j) : (pad b 0).get j = 0 := by
  by_cases h8 : j < 8
  · have hzero (i : Nat) (hi : i < 4) : byteAt (pad b 0) (4 * j + i) = 0 :=
      byteAt_pad_above b (by omega) (by omega)
    rw [get_eq_le32_bytes _ h8, hzero 1 (by decide), hzero 2 (by decide), hzero 3 (by decide),
      show byteAt (pad b 0) (4 * j) = 0 from hzero 0 (by decide)]
    decide
  · exact Words8.get_of_ge _ (by omega)

/-- Settles O16: the bytes are `byteAt_pad`, the words are made of them, and the three examples follow by the
position of each byte. -/
theorem padBytes : Obligations.PadBytes :=
  ⟨fun b len _ _ hk => byteAt_pad b len hk,
    fun _ _ _ _ hj => get_eq_le32_bytes _ hj,
    pad_full,
    fun b => ⟨pad_empty_get_zero b, fun _ hj => pad_empty_get_of_pos b hj⟩,
    fun b => byteAt_pad_at b (len := 31) (by decide)⟩

/-! ### FeistelSwap (41_sponge.md R173) -/

/-- The lower half of the rate takes the upper half. -/
theorem feistelSwapHalf_get_low (v : Words8) {i : Nat} (hi : i < 2) :
    (feistelSwapHalf v).get i = v.get (i + 2) := by
  rw [feistelSwapHalf, Words8.get_ofFn _ (by omega), if_pos hi]

/-- The upper half of the rate gets the lower half added. -/
theorem feistelSwapHalf_get_high (v : Words8) {i : Nat} (hi : i < 2) :
    (feistelSwapHalf v).get (i + 2) = v.get (i + 2) ^^^ v.get i := by
  rw [feistelSwapHalf, Words8.get_ofFn _ (by omega), if_neg (by omega), if_pos (by omega), Nat.add_sub_cancel]

/-- The swap leaves the capacity. -/
theorem feistelSwapHalf_get_capacity (v : Words8) {j : Nat} (hj : 4 ≤ j) :
    (feistelSwapHalf v).get j = v.get j :=
  Words8.get_ofFn_eq_get ((if_neg (by omega)).trans (if_neg (by omega)))

/-! ### Absorb (41_sponge.md R174) -/

/-- What `Absorb` does to one array, `f i` being the word of `V` that goes to branch `i`. -/
def absorbHalf (f : Nat → Word) (v : Words8) : Words8 :=
  Words8.ofFn fun i =>
    if i < 4 then (feistelSwapHalf v).get i ^^^ f i ^^^ (feistelSwapHalf v).get (4 + i % 4)
    else (feistelSwapHalf v).get i

theorem absorb_x (v : Words8) (p : SparkleState) :
    (absorb v p).x = absorbHalf (fun i => v.get (2 * i)) p.x := rfl

theorem absorb_y (v : Words8) (p : SparkleState) :
    (absorb v p).y = absorbHalf (fun i => v.get (2 * i + 1)) p.y := rfl

/-- A rate word after `Absorb`: the whitening word is the old capacity's, which the swap leaves. -/
theorem absorbHalf_get_rate (f : Nat → Word) (v : Words8) {i : Nat} (hi : i < 4) :
    (absorbHalf f v).get i = (feistelSwapHalf v).get i ^^^ f i ^^^ v.get (4 + i) := by
  rw [absorbHalf, Words8.get_ofFn _ (by omega), if_pos hi, Nat.mod_eq_of_lt hi,
    feistelSwapHalf_get_capacity v (Nat.le_add_right 4 i)]

/-- `Absorb` leaves the capacity. -/
theorem absorbHalf_get_capacity (f : Nat → Word) (v : Words8) {j : Nat} (hj : 4 ≤ j) :
    (absorbHalf f v).get j = v.get j :=
  Words8.get_ofFn_eq_get ((if_neg (by omega)).trans (feistelSwapHalf_get_capacity v hj))

/-- Settles O17: both arrays are swapped by `feistelSwapHalf` and absorb by `absorbHalf`. -/
theorem absorbWords : Obligations.AbsorbWords := by
  intro v p
  rw [absorb_x, absorb_y]
  refine ⟨fun i hi => ?swap, fun i hi => ?absorb, fun j hj => ?capacity⟩
  case swap =>
    exact ⟨feistelSwapHalf_get_low p.x hi, feistelSwapHalf_get_low p.y hi,
      feistelSwapHalf_get_high p.x hi, feistelSwapHalf_get_high p.y hi⟩
  case absorb => exact ⟨absorbHalf_get_rate _ p.x hi, absorbHalf_get_rate _ p.y hi⟩
  case capacity =>
    exact ⟨feistelSwapHalf_get_capacity p.x hj, feistelSwapHalf_get_capacity p.y hj,
      absorbHalf_get_capacity _ p.x hj, absorbHalf_get_capacity _ p.y hj⟩

/-! ### The output of a data block (41_sponge.md R176, R177) -/

/-- Byte `k` of the output. -/
theorem byteAt_rhoOutput (b : Words8) (len : Nat) (p : SparkleState) {k : Nat} (hk : k < 32) :
    byteAt (rhoOutput b len p) k = if k < len then byteAt b k ^^^ byteAt (rateWords p) k else 0 := by
  rw [rhoOutput, xorBlock, byteAt_ofBytes _ hk]

/-- The output of a full block is the rate XOR the block. -/
theorem rhoOutput_full (b : Words8) (p : SparkleState) : rhoOutput b 32 p = (rateWords p).xor b := by
  refine ext_byteAt fun k hk => ?_
  rw [byteAt_rhoOutput b 32 p hk, if_pos hk, byteAt_xor, BitVec.xor_comm]

/-- The rate cancels in the output of an output, which gives the block back up to its length. -/
theorem byteAt_rhoOutput_rhoOutput (b : Words8) (len : Nat) (p : SparkleState) {k : Nat} (hk : k < 32) :
    byteAt (rhoOutput (rhoOutput b len p) len p) k = if k < len then byteAt b k else 0 := by
  rw [byteAt_rhoOutput _ len p hk]
  by_cases hlen : k < len
  · rw [if_pos hlen, if_pos hlen, byteAt_rhoOutput b len p hk, if_pos hlen, BitVec.xor_assoc, BitVec.xor_self,
      BitVec.xor_zero]
  · rw [if_neg hlen, if_neg hlen]

/-- The output of an output pads as the block does. -/
theorem pad_rhoOutput_rhoOutput (b : Words8) (len : Nat) (p : SparkleState) :
    pad (rhoOutput (rhoOutput b len p) len p) len = pad b len :=
  pad_congr fun k hk hlen => by rw [byteAt_rhoOutput_rhoOutput b len p hk, if_pos hlen]

/-! ### Both directions absorb the same (41_sponge.md R178) -/

/-- `rho_whi_dec` absorbs the padded output in both of its branches: a full block needs no padding. -/
theorem rhoWhiDec_eq_absorb_output (c : Words8) {len : Nat} (p : SparkleState) (hlen : len ≤ 32) :
    rhoWhiDec c len p = absorb (pad (rhoOutput c len p) len) p := by
  rcases Nat.lt_or_eq_of_le hlen with hpartial | rfl
  · rw [rhoWhiDec, if_pos hpartial]
  · rw [rhoWhiDec, if_neg (Nat.lt_irrefl 32), pad_full, rhoOutput_full]

/-- Settles O18: decryption absorbs its padded output (`rhoWhiDec_eq_absorb_output`), as encryption absorbs its
padded input, and the output of an output is the block up to its length. -/
theorem decryptionUndoesEncryptionOfBlock : Obligations.DecryptionUndoesEncryptionOfBlock := by
  intro b len p hlen
  have hdec (c : Words8) := rhoWhiDec_eq_absorb_output c p hlen
  refine ⟨hdec b, hdec b, ?undo, fun k hk => byteAt_rhoOutput_rhoOutput b len p hk⟩
  case undo => rw [hdec, pad_rhoOutput_rhoOutput, rhoWhiEnc]

end Sys2Proof.Machine
end

section
/-!
The number of commands of a call (41_sponge.md R181, R199): how many blocks a byte string has, and that a call
gives one command for each block and three besides.
-/

namespace Sys2Proof.Machine

/-! ### The number of blocks (41_sponge.md R181, R184, R190) -/

/-- With fuel for all its full blocks, a byte string has one block for each 32 bytes begun, and at least one. -/
theorem chunksAux_length {fuel : Nat} {d : List Byte} (h : d.length ≤ 32 * (fuel + 1)) :
    (chunksAux fuel d).length = max 1 ((d.length + 31) / 32) := by
  induction fuel generalizing d with
  | zero => rw [chunksAux, List.length_singleton]; omega
  | succ n ih =>
    rw [chunksAux]
    split
    next hlong =>
      rw [List.length_cons, ih (by rw [List.length_drop]; omega), List.length_drop]
      omega
    next hshort => rw [List.length_singleton]; omega

theorem chunks_length (d : List Byte) : (chunks d).length = max 1 ((d.length + 31) / 32) :=
  chunksAux_length (by omega)

/-- An empty AAD has no block. -/
theorem aadChunks_length (a : List Byte) : (aadChunks a).length = (a.length + 31) / 32 := by
  rw [aadChunks]
  split
  next hempty => rw [hempty]; rfl
  next hsome =>
    have hpos : 0 < a.length := List.length_pos_iff.mpr hsome
    rw [chunks_length]
    omega

/-- Without SKIP_EMPTY_DATA the data phase is never skipped. -/
theorem dataChunks_false (m : List Byte) : dataChunks false m = chunks m := by
  simp [dataChunks]

/-! ### The commands in a list of port events (30_encoding.md R104) -/

@[simp] theorem commandCount_nil : commandCount [] = 0 := rfl

@[simp] theorem commandCount_append (es fs : List HostEvent) :
    commandCount (es ++ fs) = commandCount es + commandCount fs := by
  simp [commandCount]

/-- `do C` gives one command. -/
@[simp] theorem commandCount_doEvents (i : Instr) : commandCount (doEvents i) = 1 := rfl

/-- Events none of which writes CMD give no command. -/
theorem commandCount_map_eq_zero {f : Nat → HostEvent} (h : ∀ k, isCommandWrite (f k) = false) (l : List Nat) :
    commandCount (l.map f) = 0 := by
  simp [commandCount, h]

/-- Loading a buffer above CMD gives no command. -/
theorem commandCount_loadEvents {base : Nat} (h : 0 < base) (b : List Byte) :
    commandCount (loadEvents base b) = 0 := by
  have hoffset (k : Nat) : base + 4 * k ≠ cmdOffset := by rw [cmdOffset]; omega
  exact commandCount_map_eq_zero (f := fun k => wr (base + 4 * k) ((packBlock b).get k))
    (fun k => beq_false_of_ne (hoffset k)) _

/-- A read gives no command. -/
@[simp] theorem commandCount_readEvents (base : Nat) : commandCount (readEvents base) = 0 :=
  commandCount_map_eq_zero (fun _ => rfl) _

/-- A block that is not the last one is followed by the rest of its phase. -/
theorem phaseEvents_cons_cons (block : Instr) (final : BitVec 6 → Instr) (after : List HostEvent)
    (b c : List Byte) (cs : List (List Byte)) :
    phaseEvents block final after (b :: c :: cs) =
      loadEvents dinOffset b ++ doEvents block ++ after ++ phaseEvents block final after (c :: cs) := rfl

/-- A phase gives one command for each of its blocks. -/
theorem commandCount_phaseEvents (block : Instr) (final : BitVec 6 → Instr) {after : List HostEvent}
    (hafter : commandCount after = 0) (bs : List (List Byte)) :
    commandCount (phaseEvents block final after bs) = bs.length := by
  have hload (b : List Byte) : commandCount (loadEvents dinOffset b) = 0 :=
    commandCount_loadEvents (by decide) b
  induction bs with
  | nil => rfl
  | cons b bs ih =>
    cases bs with
    | nil => simp [phaseEvents, hload, hafter]
    | cons c cs =>
      simp only [phaseEvents_cons_cons, commandCount_append, hload, commandCount_doEvents, hafter, ih,
        List.length_cons]
      omega

/-! ### Whole calls (41_sponge.md R199) -/

/-- The commands of the two phases of a call are its blocks. -/
theorem commandCount_phases (block : Instr) (final : BitVec 6 → Instr) (a m : List Byte) :
    commandCount (phaseEvents .aadBlock .aadFinal [] (aadChunks a)) +
      commandCount (phaseEvents block final (readEvents doutOffset) (dataChunks false m)) =
    (a.length + 31) / 32 + max 1 ((m.length + 31) / 32) := by
  rw [commandCount_phaseEvents _ _ commandCount_nil, commandCount_phaseEvents _ _ (commandCount_readEvents _),
    aadChunks_length, dataChunks_false, chunks_length]

/-- Settles O58: besides its blocks (`commandCount_phases`) a call gives INIT, FINALIZE and the command that ends it;
its loads and reads give none. -/
theorem commandCountOfCalls : Obligations.CommandCountOfCalls := by
  intro k n a p t
  have hkey : commandCount (loadEvents keyOffset k) = 0 := commandCount_loadEvents (by decide) k
  have hnonce : commandCount (loadEvents nonceOffset n) = 0 := commandCount_loadEvents (by decide) n
  have htagin : commandCount (loadEvents taginOffset t) = 0 := commandCount_loadEvents (by decide) t
  constructor
  case left =>
    have hphases := commandCount_phases .encBlock .encFinal a p
    simp only [encryptEvents, commandCount_append, commandCount_doEvents, commandCount_readEvents, hkey, hnonce]
    omega
  case right =>
    have hphases := commandCount_phases .decBlock .decFinal a p
    simp only [decryptEvents, commandCount_append, commandCount_doEvents, hkey, hnonce, htagin]
    omega

end Sys2Proof.Machine
end

section
/-!
The controller (42_control.md): what NOP and CLEAR leave (R233, R234), and that every command follows the
acceptance and transition table (R231, R240).
-/

namespace Sys2Proof.Machine

/-! ### NOP and CLEAR (42_control.md R233, R234) -/

theorem exec_nop (s : State) : exec .nop s = .next s.clearAuth.succeed := rfl

theorem exec_clear (s : State) : exec .clear s = .next s.clearAuth.zeroize.clearOverrun.succeed := rfl

/-- A success of NOP writes ERR, AUTH_OK and what ends every completion, in one update. -/
theorem State.succeed_clearAuth (s : State) :
    s.clearAuth.succeed = ({ s with err := .ok, authOk := false } : State).retire := rfl

theorem State.zeroize_zeroized (s : State) : s.zeroize.zeroized :=
  ⟨rfl, rfl, rfl, rfl, rfl, rfl, rfl, rfl, rfl, rfl⟩

/-- The end of a command touches nothing that zeroize clears. -/
@[simp] theorem State.succeed_zeroized (s : State) : s.succeed.zeroized ↔ s.zeroized := Iff.rfl

/-- OVERRUN is nothing that zeroize clears. -/
@[simp] theorem State.clearOverrun_zeroized (s : State) : s.clearOverrun.zeroized ↔ s.zeroized := Iff.rfl

/-- Settles O20: NOP checks nothing, and its body is `AUTH_OK <- 0` alone. -/
theorem nopCompletes : Obligations.NopCompletes :=
  ⟨rfl, fun s => (exec_nop s).trans (congrArg _ s.succeed_clearAuth)⟩

/-- Settles O21: CLEAR checks nothing, and nothing after its zeroize writes what that cleared. -/
theorem clearCompletes : Obligations.ClearCompletes := by
  refine ⟨rfl, fun s => ⟨_, exec_clear s, ?_⟩⟩
  have hzero : s.clearAuth.zeroize.clearOverrun.succeed.zeroized := by
    simpa using s.clearAuth.zeroize_zeroized
  exact ⟨hzero, by simp⟩

/-! ### The phases of each group of commands (42_control.md R231, R240) -/

theorem Phase.acceptsAad_iff (q : Phase) : q.acceptsAad = true ↔ q = .aadStart ∨ q = .aadMid := by
  cases q <;> decide

theorem Phase.acceptsData_iff (q : Phase) :
    q.acceptsData = true ↔ q = .aadStart ∨ q = .dataStart ∨ q = .dataMid := by
  cases q <;> decide

theorem Phase.acceptsFinalize_iff (skip : Bool) (q : Phase) :
    q.acceptsFinalize skip = true ↔ q = .finalReady ∨ (skip = true ∧ (q = .aadStart ∨ q = .dataStart)) := by
  cases q <;> simp [Phase.acceptsFinalize]

theorem acceptsDataDir_iff (dir : Dir) (s : State) :
    acceptsDataDir dir s = true ↔
      s.dir = dir ∧ (s.phase = .aadStart ∨ s.phase = .dataStart ∨ s.phase = .dataMid) := by
  simp [acceptsDataDir, Phase.acceptsData_iff]

/-! ### Following an entry of the table -/

/-- The answer is a completed state that follows `entry`, a cell of the table: without an error it is in the phase
that the cell shows, and its error is SEQUENCE exactly if the cell is empty. -/
def FollowsEntry (entry : Option Phase) (r : Result) : Prop :=
  ∃ t, r = .next t ∧ (t.err = .ok → entry = some t.phase) ∧ (t.err = .sequence ↔ entry = none)

/-- A success follows the cell of the phase it is in. -/
theorem followsEntry_succeed (s : State) : FollowsEntry (some s.phase) (.next s.succeed) :=
  ⟨_, rfl, by simp⟩

/-- An error of lower priority than SEQUENCE follows every cell that is not empty. -/
theorem followsEntry_raiseError (q : Phase) (s : State) {e : ErrCode} (hok : e ≠ .ok) (hseq : e ≠ .sequence) :
    FollowsEntry (some q) (.next (s.raiseError e)) :=
  ⟨_, rfl, by simp [hok, hseq]⟩

/-- SEQUENCE follows the empty cell. -/
theorem followsEntry_sequence (s : State) : FollowsEntry none (.next (s.raiseError .sequence)) :=
  ⟨_, rfl, by simp⟩

/-- A check with an error of lower priority than SEQUENCE keeps to the cell in both outcomes. -/
theorem FollowsEntry.require {q : Phase} {r : Result} (h : FollowsEntry (some q) r) (c : Bool) {e : ErrCode}
    (hok : e ≠ .ok) (hseq : e ≠ .sequence) (s : State) : FollowsEntry (some q) (require c e s r) := by
  cases c with
  | true => exact h
  | false => exact followsEntry_raiseError q s hok hseq

/-- The check of a command's acceptance follows the table's cell where it decides whether the cell is empty. -/
theorem FollowsEntry.accept {q : Phase} {r : Result} (h : FollowsEntry (some q) r) {c : Bool} {p : Prop}
    [Decidable p] (hc : c = true ↔ p) (s : State) :
    FollowsEntry (if p then some q else none) (Machine.require c .sequence s r) := by
  by_cases hp : p
  · rw [if_pos hp, hc.mpr hp]
    exact h
  · rw [if_neg hp, Bool.eq_false_iff.mpr (mt hc.mp hp)]
    exact followsEntry_sequence s

/-- Every command that the encoding has follows its cell of the table: the check of its acceptance is the cell's
condition, every later check has another code, and its body moves PHASE to what the cell shows. -/
theorem exec_followsEntry {i : Instr} (hi : i.wellFormed = true) (s : State) :
    FollowsEntry (phaseAfter s.skipEmptyData s.dir i s.phase) (exec i s) := by
  cases i with
  | nop | clear => exact followsEntry_succeed _
  | init dir =>
    exact .accept (.require (followsEntry_succeed _) _ (by decide) (by decide) s) beq_iff_eq s
  | aadBlock => exact .accept (followsEntry_succeed _) s.phase.acceptsAad_iff s
  | aadFinal len =>
    exact .accept (.require (followsEntry_succeed _) _ (by decide) (by decide) s) s.phase.acceptsAad_iff s
  | encBlock | decBlock => exact .accept (followsEntry_succeed _) (acceptsDataDir_iff _ s) s
  | encFinal len | decFinal len =>
    exact .accept (.require (followsEntry_succeed _) _ (by decide) (by decide) s) (acceptsDataDir_iff _ s) s
  | finalize => exact .accept (followsEntry_succeed _) (s.phase.acceptsFinalize_iff _) s
  | verify =>
    refine .accept ?_ (by simp [and_comm]) s
    split
    · exact followsEntry_raiseError _ _ (by decide) (by decide)
    · exact followsEntry_succeed _
  | perm nb steps =>
    have hnb : nbLegal nb = true := hi
    rw [exec, execPerm, hnb, require_true]
    exact .accept (.require (followsEntry_succeed _) _ (by decide) (by decide) s) beq_iff_eq s

/-- Settles O33: the state that a command answers is the one that follows its cell (`exec_followsEntry`). -/
theorem acceptanceTable : Obligations.AcceptanceTable := by
  intro i s t hi ht
  obtain ⟨u, hu, hfollows⟩ := exec_followsEntry hi s
  obtain rfl : u = t := Host.Outcome.next.inj (hu.symm.trans ht)
  exact hfollows

end Sys2Proof.Machine
end

section
/-!
Errors (60_exceptions.md R252, R253): the priority table is the sequence of the commands' own checks, every error is
one `raiseError` of the starting state, and what that leaves in a session and in IDLE.
-/

namespace Sys2Proof.Machine

/-! ### The ranges of LEN (42_control.md R232, R240) -/

/-- AAD.FINAL's check of LEN fails exactly where the priority table reports LENGTH. -/
theorem aadLenLegal_iff (len : BitVec 6) :
    aadLenLegal len.toNat = true ↔ ¬ (len = 0 ∨ 32 < len.toNat) := by
  have hzero : len = 0 ↔ len.toNat = 0 := BitVec.toNat_eq
  simp only [aadLenLegal, decide_eq_true_eq, hzero]
  omega

/-- The data commands' check of LEN fails exactly where the priority table reports LENGTH. -/
theorem dataLenLegal_iff (skip : Bool) (q : Phase) (len : BitVec 6) :
    dataLenLegal skip q len.toNat = true ↔ ¬ dataLenBad skip q len = true := by
  have hzero : len = 0 ↔ len.toNat = 0 := BitVec.toNat_eq
  simp only [dataLenLegal, dataLenBad, decide_eq_true_eq, Bool.or_eq_true, Bool.and_eq_true, beq_iff_eq, hzero]
  cases skip <;> by_cases hq : q = .dataMid <;> simp [hq] <;> omega

/-- INIT's check of the two loads fails exactly where the priority table reports NOKEY. -/
theorem loaded_iff (s : State) :
    (keyLoaded s && nonceLoaded s) = true ↔ ¬ (s.keyMask ≠ 0xFF ∨ s.nonceMask ≠ 0xFF) := by
  simp [keyLoaded, nonceLoaded]

/-! ### The priority table as the commands' checks in order (60_exceptions.md R252) -/

/-- A cell of the acceptance table is empty exactly where its condition fails. -/
theorem cell_eq_none_iff {p : Prop} [Decidable p] (q : Phase) : (if p then some q else none) = none ↔ ¬ p := by
  by_cases hp : p <;> simp [hp]

section PriorityTable
variable (s : State)

theorem commandError_init (dir : Dir) :
    commandError s (.init dir) =
      if s.phase == .idle then if keyLoaded s && nonceLoaded s then .ok else .nokey else .sequence := by
  simp only [commandError, Instr.wellFormed, Bool.true_eq_false, if_false, phaseAfter, cell_eq_none_iff, ite_not,
    beq_iff_eq, loaded_iff]

theorem commandError_aadBlock :
    commandError s .aadBlock = if s.phase.acceptsAad then .ok else .sequence := by
  simp only [commandError, Instr.wellFormed, Bool.true_eq_false, if_false, phaseAfter, cell_eq_none_iff, ite_not,
    Phase.acceptsAad_iff]

theorem commandError_aadFinal (len : BitVec 6) :
    commandError s (.aadFinal len) =
      if s.phase.acceptsAad then if aadLenLegal len.toNat then .ok else .length else .sequence := by
  simp only [commandError, Instr.wellFormed, Bool.true_eq_false, if_false, phaseAfter, cell_eq_none_iff, ite_not,
    Phase.acceptsAad_iff, aadLenLegal_iff]

theorem commandError_encBlock :
    commandError s .encBlock = if acceptsDataDir .encrypt s then .ok else .sequence := by
  simp only [commandError, Instr.wellFormed, Bool.true_eq_false, if_false, phaseAfter, cell_eq_none_iff, ite_not,
    acceptsDataDir_iff]

theorem commandError_encFinal (len : BitVec 6) :
    commandError s (.encFinal len) =
      if acceptsDataDir .encrypt s then
        if dataLenLegal s.skipEmptyData s.phase len.toNat then .ok else .length
      else .sequence := by
  simp only [commandError, Instr.wellFormed, Bool.true_eq_false, if_false, phaseAfter, cell_eq_none_iff, ite_not,
    acceptsDataDir_iff, dataLenLegal_iff]

theorem commandError_decBlock :
    commandError s .decBlock = if acceptsDataDir .decrypt s then .ok else .sequence := by
  simp only [commandError, Instr.wellFormed, Bool.true_eq_false, if_false, phaseAfter, cell_eq_none_iff, ite_not,
    acceptsDataDir_iff]

theorem commandError_decFinal (len : BitVec 6) :
    commandError s (.decFinal len) =
      if acceptsDataDir .decrypt s then
        if dataLenLegal s.skipEmptyData s.phase len.toNat then .ok else .length
      else .sequence := by
  simp only [commandError, Instr.wellFormed, Bool.true_eq_false, if_false, phaseAfter, cell_eq_none_iff, ite_not,
    acceptsDataDir_iff, dataLenLegal_iff]

theorem commandError_finalize :
    commandError s .finalize = if s.phase.acceptsFinalize s.skipEmptyData then .ok else .sequence := by
  simp only [commandError, Instr.wellFormed, Bool.true_eq_false, if_false, phaseAfter, cell_eq_none_iff, ite_not,
    Phase.acceptsFinalize_iff]

theorem commandError_verify :
    commandError s .verify =
      if s.phase == .done && s.dir == .decrypt then
        if tagDifference (capacityWords s.perm) s.tagin ≠ 0 then .auth else .ok
      else .sequence := by
  simp only [commandError, Instr.wellFormed, Bool.true_eq_false, if_false, phaseAfter, cell_eq_none_iff, ite_not,
    Bool.and_eq_true, beq_iff_eq, and_comm, ne_eq, tagDifference_eq_zero_iff]

theorem commandError_perm (nb : BitVec 2) (steps : BitVec 8) :
    commandError s (.perm nb steps) =
      if nbLegal nb then if s.phase == .idle then if steps != 0 then .ok else .steps else .sequence
      else .illegal := by
  cases h : nbLegal nb <;> simp [commandError, Instr.wellFormed, phaseAfter, h]

end PriorityTable

/-- AUTH is VERIFY's alone, and only where VERIFY is accepted. -/
theorem commandError_eq_auth {s : State} {i : Instr} (h : commandError s i = .auth) :
    i = .verify ∧ s.phase = .done := by
  cases i with
  | verify =>
    rw [commandError_verify] at h
    by_cases hp : s.phase = .done
    · exact ⟨rfl, hp⟩
    · simp [hp] at h
  | nop | init | aadBlock | aadFinal | encBlock | encFinal | decBlock | decFinal | finalize | perm | clear =>
    grind [commandError]

/-! ### What a completion reports -/

/-- The answer of a completion from `s` reports the code `e`: ERR is `e`, and unless that is 0 the answer is `s` with
that error taken. -/
def Reports (s : State) (e : ErrCode) (r : Result) : Prop :=
  ∃ t, r = .next t ∧ t.err = e ∧ (e ≠ .ok → t = s.raiseError e)

theorem reports_succeed (s u : State) : Reports s .ok (.next u.succeed) :=
  ⟨_, rfl, u.succeed_err, fun h => absurd rfl h⟩

theorem reports_raiseError (s : State) (e : ErrCode) : Reports s e (.next (s.raiseError e)) :=
  ⟨_, rfl, s.raiseError_err e, fun _ => rfl⟩

/-- VERIFY has zeroized before it raises AUTH; as AUTH zeroizes in every phase, that is taking AUTH as it stands. -/
theorem State.raiseError_auth_of_zeroized (s : State) :
    s.clearAuth.zeroize.raiseError .auth = s.raiseError .auth := by
  rw [State.raiseError, State.raiseError, State.endSession_auth, State.endSession_auth]
  rfl

/-- A check reports its own code where it fails, and otherwise what the rest reports: earlier checks come first. -/
theorem Reports.require {s : State} {e' : ErrCode} {r : Result} (h : Reports s e' r) (c : Bool) (e : ErrCode) :
    Reports s (if c then e' else e) (require c e s r) := by
  cases c with
  | true => exact h
  | false => exact reports_raiseError s e

/-- Every command reports what the priority table says. -/
theorem exec_reports (i : Instr) (s : State) : Reports s (commandError s i) (exec i s) := by
  cases i with
  | nop | clear => exact reports_succeed s _
  | aadBlock | encBlock | decBlock | finalize =>
    simp only [commandError_aadBlock, commandError_encBlock, commandError_decBlock, commandError_finalize]
    exact .require (reports_succeed s _) _ _
  | init | aadFinal | encFinal | decFinal =>
    simp only [commandError_init, commandError_aadFinal, commandError_encFinal, commandError_decFinal]
    exact .require (.require (reports_succeed s _) _ _) _ _
  | verify =>
    rw [commandError_verify]
    refine .require ?_ _ _
    by_cases ht : tagDifference (capacityWords s.perm) s.tagin ≠ 0
    · rw [if_pos ht, if_pos ht, s.raiseError_auth_of_zeroized]
      exact reports_raiseError s .auth
    · rw [if_neg ht, if_neg ht]
      exact reports_succeed s _
  | perm nb steps =>
    rw [commandError_perm]
    exact .require (.require (.require (reports_succeed s _) _ _) _ _) _ _

/-- A command that reports an error takes that error and does nothing else, AUTH included. -/
theorem exec_error {i : Instr} {s t : State} (h : exec i s = .next t) (he : t.err ≠ .ok) :
    t.err = commandError s i ∧ t = s.raiseError t.err := by
  obtain ⟨u, hu, herr, hraise⟩ := exec_reports i s
  obtain rfl : u = t := Host.Outcome.next.inj (hu.symm.trans h)
  rw [herr] at he ⊢
  exact ⟨rfl, hraise he⟩

/-- Settles O32: the table is the commands' checks in their order (`exec_reports`), and a word that does not decode
completes with ILLEGAL. -/
theorem errorPriority : Obligations.ErrorPriority := by
  refine ⟨?command, ?completion, fun i s t h hok _ => (exec_error h hok).2⟩
  case command =>
    intro i s
    obtain ⟨t, ht, herr, -⟩ := exec_reports i s
    exact ⟨t, ht, herr⟩
  case completion =>
    intro s hc
    cases hd : decodeWord s.pending with
    | ok i =>
      obtain ⟨t, ht, herr, -⟩ := exec_reports i s
      exact ⟨t, (step_of_command hc (pendingCommand_eq_some.mpr hd)).trans ht, herr⟩
    | error x =>
      have hnone : pendingCommand s = none := by simp [pendingCommand, hd]
      exact ⟨_, step_of_illegal hc hnone, s.raiseError_err _⟩

/-! ### What an error leaves (60_exceptions.md R253) -/

/-- An error in a session clears everything that zeroize clears. -/
theorem State.raiseError_zeroized {s : State} (h : s.phase ≠ .idle) (e : ErrCode) : (s.raiseError e).zeroized := by
  rw [State.raiseError_session h]
  exact s.zeroize_zeroized

/-- A completion that reports an error takes it from the state it started in, and in IDLE that is not AUTH. -/
theorem step_error {s t : State} (hc : completesNow s = true) (hs : step s = .next t) (he : t.err ≠ .ok) :
    t = s.raiseError t.err ∧ (s.phase = .idle → t.err ≠ .auth) := by
  rcases step_eq_next hs with ⟨-, i, -, hexec⟩ | ⟨-, -, rfl⟩ | ⟨hc', -⟩
  · obtain ⟨herr, hraise⟩ := exec_error hexec he
    refine ⟨hraise, fun hidle hauth => ?_⟩
    obtain ⟨-, hdone⟩ := commandError_eq_auth (herr.symm.trans hauth)
    exact absurd (hidle.symm.trans hdone) (by decide)
  · simp
  · exact absurd hc (by simp [hc'])

/-- Settles O34: an error at a completion is one `raiseError` of the state it started in (`step_error`), whose effect
in a session and in IDLE is said once. -/
theorem errorEffect : Obligations.ErrorEffect := by
  intro s t hc hs he
  obtain ⟨hraise, hauth⟩ := step_error hc hs he
  generalize t.err = e at hraise hauth
  subst hraise
  simp only [State.raiseError_authOk, State.raiseError_overrun, State.raiseError_busy, true_and]
  exact ⟨fun h => State.raiseError_zeroized h e, fun h => ⟨hauth h, State.raiseError_idle h (hauth h)⟩⟩

end Sys2Proof.Machine
end

section
/-!
The encoder and the decoder are inverse to each other (30_encoding.md R90 to R101): the encoder's word has the row
and the fields of its command, and a word is determined by the command that it decodes to.
-/

namespace Sys2Proof

/-! ### A field in its place (30_encoding.md R91) -/

/-- A field that is put at bit `n` is read back from bit `n`. -/
theorem extractLsb'_placed {k n : Nat} (c : BitVec k) (h : n + k ≤ 32) :
    (c.setWidth 32 <<< n : Word).extractLsb' n k = c := by
  ext i hi
  simp [show n + i < 32 by omega, hi]

/-- A field that is put elsewhere leaves zeros. -/
theorem extractLsb'_placed_elsewhere {k n m len : Nat} (c : BitVec k) (h : m + len ≤ n ∨ n + k ≤ m) :
    (c.setWidth 32 <<< n : Word).extractLsb' m len = 0#len := by
  ext i hi
  rcases h with h | h
  · simp [show m + i < n by omega]
  · simp [show k ≤ m + i - n by omega]

/-- The LEN field of a command that has OP and LEN alone. -/
theorem lenField_placeLen {op : Word} (hop : lenField op = 0) (len : BitVec 6) :
    lenField (op ||| placeLen len) = len := by
  rw [lenField, BitVec.extractLsb'_or, ← lenField, hop, placeLen, extractLsb'_placed len (by decide)]
  exact BitVec.zero_or

/-! ### The encoder's word (30_encoding.md R101, R103) -/

/-- The encoder's word has the fields of its command. -/
theorem encode_hasFields (i : Instr) : i.HasFieldsOf (encode i) := by
  cases i with
  | nop | aadBlock | encBlock | decBlock | finalize | verify | clear => trivial
  | init dir => cases dir <;> rfl
  | aadFinal len | encFinal len | decFinal len => exact (lenField_placeLen (by decide) len).symm
  | perm nb steps =>
    constructor
    case left =>
      simp (disch := decide) only [encode, nbField, BitVec.extractLsb'_or, extractLsb'_placed,
        extractLsb'_placed_elsewhere]
      simp
    case right =>
      simp (disch := decide) only [encode, stepsField, BitVec.extractLsb'_or, extractLsb'_placed,
        extractLsb'_placed_elsewhere]
      simp

/-- Every command's word agrees with a row that carries its mnemonic. -/
theorem encodesRow (i : Instr) : Laws.EncodesRow.Statement i := by
  cases i with
  | nop => exact Laws.EncodesRow.nop
  | init dir => exact Laws.EncodesRow.init dir
  | aadBlock => exact Laws.EncodesRow.aadBlock
  | aadFinal len => exact Laws.EncodesRow.aadFinal len
  | encBlock => exact Laws.EncodesRow.encBlock
  | encFinal len => exact Laws.EncodesRow.encFinal len
  | decBlock => exact Laws.EncodesRow.decBlock
  | decFinal len => exact Laws.EncodesRow.decFinal len
  | finalize => exact Laws.EncodesRow.finalize
  | verify => exact Laws.EncodesRow.verify
  | perm nb steps => exact Laws.EncodesRow.perm nb steps
  | clear => exact Laws.EncodesRow.clear

/-- The command's own row covers its word: the row that does has its mnemonic, and mnemonics are distinct. -/
theorem row_covers_encode (i : Instr) : i.row.covers (encode i) = true := by
  obtain ⟨r, hr, hname, hcovers⟩ := encodesRow i
  have hnames : (opcodeRows.map OpcodeRow.mnemonic).Nodup := by decide
  rwa [List.inj_on_of_nodup_map hnames hr i.row_mem (hname.trans i.row_mnemonic.symm)] at hcovers

theorem decodeWord_encode {i : Instr} (hi : i.wellFormed = true) : decodeWord (encode i) = .ok i :=
  decodeWord_eq_ok.mpr ⟨row_covers_encode i, encode_hasFields i, hi⟩

/-- The bytes of a word decode as the word, whatever follows them (20_memory.md R65). -/
theorem decodeBytes_wordBytes (w : Word) (rest : List Byte) :
    decodeBytes (wordBytes w ++ rest) = (decodeWord w).map fun i => (i, rest) := by
  change (decodeWord (le32 _ _ _ _)).map (fun i => (i, rest)) = _
  rw [Machine.le32_bytes]

/-- Settles O1: the encoder's word has the command's row and fields (`decodeWord_encode`), and its bytes decode as the
word. -/
theorem decodeOfEncode : Obligations.DecodeOfEncode := by
  intro i hi
  have hword := decodeWord_encode hi
  refine ⟨hword, fun rest => ?_⟩
  rw [encodeBytes, decodeBytes_wordBytes, hword]
  rfl

/-! ### A word that decodes (30_encoding.md R97 to R101) -/

/-- NB is DIR and the bit beside it. -/
theorem nbField_eq_of_bits {v w : Word} (hlo : dirField v = dirField w)
    (hhi : v.extractLsb' 5 1 = w.extractLsb' 5 1) : nbField v = nbField w := by
  ext i hi
  obtain rfl | rfl : i = 0 ∨ i = 1 := by omega
  · simpa [nbField] using getLsbD_eq_of_field_eq (i := 4) hlo (by decide) (by decide)
  · simpa [nbField] using getLsbD_eq_of_field_eq (i := 5) hhi (by decide) (by decide)

theorem dirOfBit_injective : Function.Injective dirOfBit := by unfold Function.Injective; decide

/-- Two words with the fields of one command and no bit set that it does not use agree in every field. -/
theorem fields_eq_of_command {i : Instr} {v w : Word} (hv : i.HasFieldsOf v) (hw : i.HasFieldsOf w)
    (zv : i.UnusedZero v) (zw : i.UnusedZero w) :
    nbField v = nbField w ∧ lenField v = lenField w ∧ stepsField v = stepsField w := by
  cases i with
  | nop | aadBlock | encBlock | decBlock | finalize | verify | clear =>
    obtain ⟨nbv, lenv, stepsv⟩ := zv
    obtain ⟨nbw, lenw, stepsw⟩ := zw
    exact ⟨nbv.trans nbw.symm, lenv.trans lenw.symm, stepsv.trans stepsw.symm⟩
  | init dir =>
    obtain ⟨bitv, lenv, stepsv⟩ := zv
    obtain ⟨bitw, lenw, stepsw⟩ := zw
    have hdir : dirField v = dirField w := dirOfBit_injective (Eq.trans (Eq.symm hv) hw)
    exact ⟨nbField_eq_of_bits hdir (bitv.trans bitw.symm), lenv.trans lenw.symm, stepsv.trans stepsw.symm⟩
  | aadFinal len | encFinal len | decFinal len =>
    obtain ⟨nbv, stepsv⟩ := zv
    obtain ⟨nbw, stepsw⟩ := zw
    exact ⟨nbv.trans nbw.symm, Eq.trans (Eq.symm hv) hw, stepsv.trans stepsw.symm⟩
  | perm nb steps =>
    obtain ⟨nbv, stepsv⟩ := hv
    obtain ⟨nbw, stepsw⟩ := hw
    exact ⟨nbv.symm.trans nbw, Eq.trans zv (Eq.symm zw), stepsv.symm.trans stepsw⟩

/-- No two words decode to the same command: the command fixes every field, and the reserved bits are zero. -/
theorem word_eq_of_decodeWord {v w : Word} {i : Instr} (hv : decodeWord v = .ok i) (hw : decodeWord w = .ok i) :
    v = w := by
  obtain ⟨cv, fv, -⟩ := decodeWord_eq_ok.mp hv
  obtain ⟨cw, fw, -⟩ := decodeWord_eq_ok.mp hw
  obtain ⟨opv, resv, zv⟩ := (row_covers_iff i v).mp cv
  obtain ⟨opw, resw, zw⟩ := (row_covers_iff i w).mp cw
  obtain ⟨hnb, hlen, hsteps⟩ := fields_eq_of_command fv fw zv zw
  exact (word_eq_iff_fields v w).mpr ⟨opv.trans opw.symm, hnb, hlen, hsteps, resv.trans resw.symm⟩

/-- Settles O2: what a word decodes to is well formed, so the encoder's word decodes to it as well, and no two words
decode to one command (`word_eq_of_decodeWord`). -/
theorem encodeOfDecode : Obligations.EncodeOfDecode := by
  intro w i h
  obtain ⟨-, -, hwf⟩ := decodeWord_eq_ok.mp h
  exact ⟨word_eq_of_decodeWord (decodeWord_encode hwf) h, hwf⟩

/-- Settles O4: the seven words are evaluated. -/
theorem decodeOfWrittenWords : Obligations.DecodeOfWrittenWords := by
  unfold Obligations.DecodeOfWrittenWords
  decide

end Sys2Proof
end

section
/-!
What each command does (40_permutation.md R143, 41_sponge.md R180 to R194, 42_control.md R230): a command takes the
one error that the priority table reports, and otherwise has its effect on the state.
-/

namespace Sys2Proof.Machine

/-! ### The answer of every command (60_exceptions.md R252) -/

/-- The state a command leaves where it reports no error: its body, and the end of the completion. -/
def commandEffect : Instr → State → State
  | .nop, s => s.clearAuth.succeed
  | .init dir, s => ((s.clearAuth.advance (initState s.key s.nonce) .aadStart).setDir dir).succeed
  | .aadBlock, s => (s.clearAuth.advance (aadBlockState s.din s.perm) .aadMid).succeed
  | .aadFinal len, s => (s.clearAuth.advance (aadFinalState s.din len.toNat s.perm) .dataStart).succeed
  | .encBlock, s =>
    ((s.clearAuth.advance (encBlockState s.din s.perm) .dataMid).setDout
      (rhoOutput s.din blockBytes s.perm)).succeed
  | .encFinal len, s =>
    ((s.clearAuth.advance (encFinalState s.din len.toNat s.perm) .finalReady).setDout
      (rhoOutput s.din len.toNat (addDomain (dataConstant len.toNat) s.perm))).succeed
  | .decBlock, s =>
    ((s.clearAuth.advance (decBlockState s.din s.perm) .dataMid).setDout
      (rhoOutput s.din blockBytes s.perm)).succeed
  | .decFinal len, s =>
    ((s.clearAuth.advance (decFinalState s.din len.toNat s.perm) .finalReady).setDout
      (rhoOutput s.din len.toNat (addDomain (dataConstant len.toNat) s.perm))).succeed
  | .finalize, s => (s.clearAuth.advance (finalizeState s.key s.perm) .done).succeed
  | .verify, s => s.clearAuth.zeroize.setAuth.succeed
  | .perm nb steps, s => (s.clearAuth.advance (sparkle (branchesOf nb) steps.toNat s.perm) .idle).succeed
  | .clear, s => s.clearAuth.zeroize.clearOverrun.succeed

/-- The state a completion leaves that reports `e`: `t` without an error, and otherwise `s` with the error taken. -/
def State.outcome (s t : State) (e : ErrCode) : State := if e = .ok then t else s.raiseError e

@[simp] theorem State.outcome_ok (s t : State) : s.outcome t .ok = t := rfl

/-- A check puts its own code before what the rest reports. -/
theorem require_outcome {e : ErrCode} (he : e ≠ .ok) (c : Bool) (s t : State) (e' : ErrCode) :
    require c e s (.next (s.outcome t e')) = .next (s.outcome t (if c then e' else e)) := by
  cases c with
  | true => rfl
  | false => simp [State.outcome, he]

/-- A command's only check, or its last one. -/
theorem require_body {e : ErrCode} (he : e ≠ .ok) (c : Bool) (s t : State) :
    require c e s (.next t) = .next (s.outcome t (if c then .ok else e)) :=
  require_outcome he c s t .ok

/-- Every command answers its effect, or the error that the priority table reports for it. -/
theorem exec_eq (i : Instr) (s : State) :
    exec i s = .next (s.outcome (commandEffect i s) (commandError s i)) := by
  cases i with
  | nop | clear => rfl
  | aadBlock | encBlock | decBlock | finalize =>
    simp only [commandError_aadBlock, commandError_encBlock, commandError_decBlock, commandError_finalize]
    exact require_body (by decide) _ _ _
  | init | aadFinal | encFinal | decFinal =>
    simp only [commandError_init, commandError_aadFinal, commandError_encFinal, commandError_decFinal]
    rw [← require_outcome (by simp), ← require_body (by simp)]
    rfl
  | verify =>
    rw [commandError_verify, ← require_outcome (by simp), exec, execVerify, s.raiseError_auth_of_zeroized]
    by_cases ht : tagDifference (capacityWords s.perm) s.tagin ≠ 0
    · rw [if_pos ht, if_pos ht]
      rfl
    · rw [if_neg ht, if_neg ht]
      rfl
  | perm nb steps =>
    rw [commandError_perm, ← require_outcome (by simp), ← require_outcome (by simp), ← require_body (by simp)]
    rfl

/-- A command that reports no error has its effect. -/
theorem exec_of_ok {i : Instr} {s : State} (h : commandError s i = .ok) : exec i s = .next (commandEffect i s) := by
  rw [exec_eq, h, State.outcome_ok]

/-- A command that reports an error takes it. -/
theorem exec_of_error {i : Instr} {s : State} (h : commandError s i ≠ .ok) :
    exec i s = .next (s.raiseError (commandError s i)) := by
  rw [exec_eq, State.outcome, if_neg h]

/-- Everything a command can answer. -/
theorem exec_eq_next {i : Instr} {s t : State} :
    exec i s = .next t ↔
      (commandError s i = .ok ∧ t = commandEffect i s) ∨
      (commandError s i ≠ .ok ∧ t = s.raiseError (commandError s i)) := by
  by_cases h : commandError s i = .ok
  · simp [exec_of_ok h, h, eq_comm]
  · simp [exec_of_error h, h, eq_comm]

end Sys2Proof.Machine
end

section
/-!
The commands of the specification, one by one (40_permutation.md R143, 41_sponge.md R180 to R194): the checks hold
under the rule's conditions, and the effect is the permutation state, the output and the phase that the rule gives.
-/

namespace Sys2Proof.Machine

/-! ### The completion of the pending word (42_control.md R230, 60_exceptions.md R253) -/

theorem completesNow_iff {s : State} : completesNow s = true ↔ s.busy = true ∧ s.latLeft = 0 := by
  simp [completesNow]

theorem pendingCommand_eq_none {s : State} : pendingCommand s = none ↔ ∃ e, decodeWord s.pending = .error e := by
  unfold pendingCommand
  split <;> simp_all

/-- Settles O5: the pending command is the one its word decodes to. -/
theorem stepRunsPendingCommand : Obligations.StepRunsPendingCommand :=
  fun _ _ hbusy hlat hd => step_of_command (completesNow_iff.mpr ⟨hbusy, hlat⟩) (pendingCommand_eq_some.mpr hd)

/-- Settles O6: the completion takes the error ILLEGAL, whose effect in IDLE and in a session is known. -/
theorem undecodedWordRaisesIllegal : Obligations.UndecodedWordRaisesIllegal := by
  intro s e hbusy hlat hd
  have hstep : step s = .next (s.raiseError .illegal) :=
    step_of_illegal (completesNow_iff.mpr ⟨hbusy, hlat⟩) (pendingCommand_eq_none.mpr ⟨e, hd⟩)
  refine ⟨fun hidle => ?_, fun hsession => ⟨_, hstep, ?_⟩⟩
  · rw [hstep, State.raiseError_idle hidle (by decide)]
  · simpa using State.raiseError_zeroized hsession _

/-! ### The views of the permutation state (10_state.md R20, 41_sponge.md R172, R192) -/

theorem get_rateWords (p : SparkleState) {k : Nat} (hk : k < 8) : (rateWords p).get k = flatWord p k :=
  Words8.get_ofFn _ hk

theorem get_capacityWords (p : SparkleState) {k : Nat} (hk : k < 8) :
    (capacityWords p).get k = flatWord p (8 + k) :=
  Words8.get_ofFn _ hk

/-- Settles O8: the views are flat words, whose parity says which array they are of. -/
theorem stateViews : Obligations.StateViews := by
  intro p v
  refine ⟨fun i _ => ⟨flatWord_even p i, flatWord_odd p i⟩, fun i hi => ?views, fun k j _ hj => ?bytes⟩
  case views =>
    rw [get_rateWords p (by omega), get_rateWords p (by omega), get_capacityWords p (by omega),
      get_capacityWords p (by omega), show 8 + 2 * i = 2 * (4 + i) by omega,
      show 8 + (2 * i + 1) = 2 * (4 + i) + 1 by omega]
    exact ⟨flatWord_even p i, flatWord_odd p i, flatWord_even p (4 + i), flatWord_odd p (4 + i)⟩
  case bytes =>
    rw [byteAt, show (4 * k + j) / 4 = k by omega, show (4 * k + j) % 4 = j by omega]

/-- The domain constant is in no word of the rate. -/
theorem rateWords_addDomain (c : Word) (p : SparkleState) : rateWords (addDomain c p) = rateWords p := by
  refine Words8.ext_get fun k hk => ?_
  rw [get_rateWords _ hk, get_rateWords _ hk, flatWord, flatWord, addDomain_x, addDomain_y_below c p (by omega)]

/-- The output of a data command does not depend on the domain constant. -/
theorem rhoOutput_addDomain (b : Words8) (len : Nat) (c : Word) (p : SparkleState) :
    rhoOutput b len (addDomain c p) = rhoOutput b len p := by
  rw [rhoOutput, rateWords_addDomain, rhoOutput]

/-! ### Checks that hold (60_exceptions.md R252) -/

/-- A check with an error code is passed exactly if it holds and the rest reports no error. -/
theorem check_eq_ok {c : Bool} {e e' : ErrCode} (he : e ≠ .ok) :
    (if c then e' else e) = .ok ↔ c = true ∧ e' = .ok := by
  cases c <;> simp [he]

/-- The last check with an error code is passed exactly if it holds. -/
theorem last_check_eq_ok {c : Bool} {e : ErrCode} (he : e ≠ .ok) : (if c then .ok else e) = .ok ↔ c = true := by
  rw [check_eq_ok he, and_iff_left rfl]

theorem loaded_eq_true (s : State) : (keyLoaded s && nonceLoaded s) = true ↔ s.keyMask = 0xFF ∧ s.nonceMask = 0xFF := by
  simp [keyLoaded, nonceLoaded]

/-- The range of LEN of AAD.FINAL (42_control.md R232). -/
theorem aadLenLegal_eq_true (len : Nat) : aadLenLegal len = true ↔ 1 ≤ len ∧ len ≤ 32 := decide_eq_true_iff

/-- The range of LEN of the final data commands (42_control.md R232, R240). -/
theorem dataLenLegal_eq_true (skip : Bool) (q : Phase) (len : Nat) :
    dataLenLegal skip q len = true ↔ len ≤ 32 ∧ (1 ≤ len ∨ (q ≠ .dataMid ∧ skip = false)) :=
  decide_eq_true_iff

/-! ### INIT and FINALIZE (41_sponge.md R179, R180, R191) -/

/-- NONCE is loaded into the rate and KEY into the capacity. -/
theorem flatWord_loadState (key nonce : Words8) {k : Nat} (hk : k < 8) :
    flatWord (loadState key nonce) k = nonce.get k ∧ flatWord (loadState key nonce) (8 + k) = key.get k := by
  interval_cases k <;> exact ⟨rfl, rfl⟩

/-- KEY is added to the capacity alone. -/
theorem flatWord_injectKey (key : Words8) (p : SparkleState) {k : Nat} (hk : k < 8) :
    flatWord (injectKey key p) k = flatWord p k ∧
      flatWord (injectKey key p) (8 + k) = flatWord p (8 + k) ^^^ key.get k := by
  interval_cases k <;> exact ⟨rfl, rfl⟩

/-- INIT is accepted in IDLE with the whole key and nonce written. -/
theorem commandError_init_eq_ok {s : State} (dir : Dir) :
    commandError s (.init dir) = .ok ↔ s.phase = .idle ∧ s.keyMask = 0xFF ∧ s.nonceMask = 0xFF := by
  rw [commandError_init, check_eq_ok (by decide), last_check_eq_ok (by decide), beq_iff_eq, loaded_eq_true]

/-- Settles O22: INIT permutes the loaded state. -/
theorem initStartsSession : Obligations.InitStartsSession := by
  intro d s hphase hkey hnonce
  refine ⟨loadState s.key s.nonce, fun k hk => flatWord_loadState s.key s.nonce hk, ?_⟩
  exact exec_of_ok ((commandError_init_eq_ok d).mpr ⟨hphase, hkey, hnonce⟩)

theorem commandError_finalize_eq_ok {s : State} :
    commandError s .finalize = .ok ↔
      s.phase = .finalReady ∨ (s.skipEmptyData = true ∧ (s.phase = .aadStart ∨ s.phase = .dataStart)) := by
  rw [commandError_finalize, last_check_eq_ok (by decide), Phase.acceptsFinalize_iff]

/-- Settles O29: FINALIZE permutes the state with the key injected. -/
theorem finalizeInjectsKey : Obligations.FinalizeInjectsKey := by
  intro s hphase
  refine ⟨injectKey s.key s.perm, fun k hk => flatWord_injectKey s.key s.perm hk, ?_⟩
  exact exec_of_ok (commandError_finalize_eq_ok.mpr hphase)

/-! ### The AAD commands (41_sponge.md R182, R183) -/

theorem commandError_aadBlock_eq_ok {s : State} :
    commandError s .aadBlock = .ok ↔ s.phase = .aadStart ∨ s.phase = .aadMid := by
  rw [commandError_aadBlock, last_check_eq_ok (by decide), Phase.acceptsAad_iff]

theorem commandError_aadFinal_eq_ok {s : State} {len : BitVec 6} :
    commandError s (.aadFinal len) = .ok ↔
      (s.phase = .aadStart ∨ s.phase = .aadMid) ∧ 1 ≤ len.toNat ∧ len.toNat ≤ 32 := by
  rw [commandError_aadFinal, check_eq_ok (by decide), last_check_eq_ok (by decide), Phase.acceptsAad_iff,
    aadLenLegal_eq_true]

/-- Settles O23: a full block is not padded. -/
theorem aadBlockAbsorbs : Obligations.AadBlockAbsorbs := by
  intro s hphase
  rw [exec_of_ok (commandError_aadBlock_eq_ok.mpr hphase), commandEffect, aadBlockState, rhoWhiAut, pad_full]
  rfl

/-- Settles O24: what is absorbed is DIN padded, into the state with the domain constant. -/
theorem aadFinalAbsorbs : Obligations.AadFinalAbsorbs := by
  intro len s hphase hpos hle
  exact ⟨pad s.din len.toNat, addDomain (aadConstant len.toNat) s.perm,
    fun _ hk => byteAt_pad s.din len.toNat hk, fun _ _ => rfl, fun _ hi => addDomain_y_below _ s.perm hi, rfl,
    exec_of_ok (commandError_aadFinal_eq_ok.mpr ⟨hphase, hpos, hle⟩)⟩

/-! ### The data commands (41_sponge.md R186 to R189) -/

theorem commandError_encBlock_eq_ok {s : State} :
    commandError s .encBlock = .ok ↔
      s.dir = .encrypt ∧ (s.phase = .aadStart ∨ s.phase = .dataStart ∨ s.phase = .dataMid) := by
  rw [commandError_encBlock, last_check_eq_ok (by decide), acceptsDataDir_iff]

theorem commandError_decBlock_eq_ok {s : State} :
    commandError s .decBlock = .ok ↔
      s.dir = .decrypt ∧ (s.phase = .aadStart ∨ s.phase = .dataStart ∨ s.phase = .dataMid) := by
  rw [commandError_decBlock, last_check_eq_ok (by decide), acceptsDataDir_iff]

theorem commandError_encFinal_eq_ok {s : State} {len : BitVec 6} :
    commandError s (.encFinal len) = .ok ↔
      (s.dir = .encrypt ∧ (s.phase = .aadStart ∨ s.phase = .dataStart ∨ s.phase = .dataMid)) ∧
      len.toNat ≤ 32 ∧ (1 ≤ len.toNat ∨ (s.phase ≠ .dataMid ∧ s.skipEmptyData = false)) := by
  rw [commandError_encFinal, check_eq_ok (by decide), last_check_eq_ok (by decide), acceptsDataDir_iff,
    dataLenLegal_eq_true]

theorem commandError_decFinal_eq_ok {s : State} {len : BitVec 6} :
    commandError s (.decFinal len) = .ok ↔
      (s.dir = .decrypt ∧ (s.phase = .aadStart ∨ s.phase = .dataStart ∨ s.phase = .dataMid)) ∧
      len.toNat ≤ 32 ∧ (1 ≤ len.toNat ∨ (s.phase ≠ .dataMid ∧ s.skipEmptyData = false)) := by
  rw [commandError_decFinal, check_eq_ok (by decide), last_check_eq_ok (by decide), acceptsDataDir_iff,
    dataLenLegal_eq_true]

/-- Byte `k` of the output of a full block. -/
theorem byteAt_rhoOutput_full (b : Words8) (p : SparkleState) {k : Nat} (hk : k < 32) :
    byteAt (rhoOutput b blockBytes p) k = byteAt b k ^^^ byteAt (rateWords p) k := by
  rw [byteAt_rhoOutput b _ p hk, blockBytes, if_pos hk]

/-- Settles O25: a full block is not padded. -/
theorem encBlockEncrypts : Obligations.EncBlockEncrypts := by
  intro s hdir hphase
  refine ⟨rhoOutput s.din blockBytes s.perm, fun k hk => byteAt_rhoOutput_full s.din s.perm hk, ?_⟩
  rw [exec_of_ok (commandError_encBlock_eq_ok.mpr ⟨hdir, hphase⟩), commandEffect, encBlockState, rhoWhiEnc, pad_full]
  rfl

/-- Settles O27: a full block of ciphertext absorbs its output. -/
theorem decBlockDecrypts : Obligations.DecBlockDecrypts := by
  intro s hdir hphase
  refine ⟨rhoOutput s.din blockBytes s.perm, fun k hk => byteAt_rhoOutput_full s.din s.perm hk, ?_⟩
  rw [exec_of_ok (commandError_decBlock_eq_ok.mpr ⟨hdir, hphase⟩), commandEffect, decBlockState,
    rhoWhiDec_eq_absorb_output _ _ (Nat.le_refl 32), pad_full]
  rfl

/-- Settles O26: what is absorbed is DIN padded, into the state with the domain constant, on which the output does not
depend. -/
theorem encFinalEncrypts : Obligations.EncFinalEncrypts := by
  intro len s hdir hphase hle hlen
  have hexec := exec_of_ok (commandError_encFinal_eq_ok.mpr ⟨⟨hdir, hphase⟩, hle, hlen⟩)
  rw [commandEffect, rhoOutput_addDomain] at hexec
  exact ⟨rhoOutput s.din len.toNat s.perm, pad s.din len.toNat, addDomain (dataConstant len.toNat) s.perm,
    fun _ hk => byteAt_rhoOutput s.din len.toNat s.perm hk, fun _ hk => byteAt_pad s.din len.toNat hk,
    fun _ _ => rfl, fun _ hi => addDomain_y_below _ s.perm hi, rfl, hexec⟩

/-- Settles O28: what is absorbed is the output padded, into the state with the domain constant, on which the output
does not depend. -/
theorem decFinalDecrypts : Obligations.DecFinalDecrypts := by
  intro len s hdir hphase hle hlen
  have hexec := exec_of_ok (commandError_decFinal_eq_ok.mpr ⟨⟨hdir, hphase⟩, hle, hlen⟩)
  rw [commandEffect, decFinalState, rhoWhiDec_eq_absorb_output _ _ hle, rhoOutput_addDomain] at hexec
  exact ⟨rhoOutput s.din len.toNat s.perm, pad (rhoOutput s.din len.toNat s.perm) len.toNat,
    addDomain (dataConstant len.toNat) s.perm,
    fun _ hk => byteAt_rhoOutput s.din len.toNat s.perm hk, fun _ hk => byteAt_pad _ len.toNat hk,
    fun _ _ => rfl, fun _ hi => addDomain_y_below _ s.perm hi, rfl, hexec⟩

/-! ### VERIFY (41_sponge.md R194) -/

/-- Settles O19: every byte pair has its XOR in the accumulator. -/
theorem tagDifferenceZeroIffEqual : Obligations.TagDifferenceZeroIffEqual := tagDifference_eq_zero_iff

theorem commandError_verify_of_done {s : State} (hphase : s.phase = .done) (hdir : s.dir = .decrypt) :
    commandError s .verify = if capacityWords s.perm = s.tagin then .ok else .auth := by
  have haccept : (s.phase == .done && s.dir == .decrypt) = true := by simp [hphase, hdir]
  simp only [commandError_verify, haccept, if_true, ne_eq, ite_not, tagDifference_eq_zero_iff]

/-- Settles O30: the session is zeroized by VERIFY's own body, or by taking AUTH. -/
theorem verifyComparesTag : Obligations.VerifyComparesTag := by
  intro s hphase hdir
  have herr := commandError_verify_of_done hphase hdir
  have hdone : s.phase ≠ .idle := by rw [hphase]; decide
  by_cases htag : capacityWords s.perm = s.tagin
  case pos =>
    rw [if_pos htag] at herr
    refine ⟨_, exec_of_ok herr, s.clearAuth.zeroize_zeroized, rfl, rfl, rfl, rfl, rfl, fun _ => ⟨rfl, rfl⟩, ?_⟩
    rintro ⟨k, hk, hne⟩
    exact absurd ((capacityWords_eq_iff _ _).mp htag k hk) hne
  case neg =>
    rw [if_neg htag] at herr
    have hexec : exec .verify s = .next (s.raiseError .auth) := by rw [exec_of_error (by simp [herr]), herr]
    refine ⟨_, hexec, State.raiseError_zeroized hdone _, ?_⟩
    simpa using fun h => htag ((capacityWords_eq_iff _ _).mpr h)

end Sys2Proof.Machine
end

section
/-!
The Sparkle engine is invertible (40_permutation.md R130, R135, R141): Alzette's inverse undoes it, each part of the
step is injective, and none of them writes a branch above the size; so PERM permutes the selected branches (R143).
-/

namespace Sys2Proof.Machine

/-! ### Alzette's inverse (40_permutation.md R135) -/

theorem alzetteRoundInv_alzetteRound (c : Word) (b : Word × Word) (r : Nat × Nat) :
    alzetteRoundInv c (alzetteRound c b r) r = b := by
  simp [alzetteRoundInv, alzetteRound]

theorem alzetteRound_alzetteRoundInv (c : Word) (b : Word × Word) (r : Nat × Nat) :
    alzetteRound c (alzetteRoundInv c b r) r = b := by
  simp [alzetteRoundInv, alzetteRound]

/-- Steps that each undo one another undo a whole list of them in reverse order. -/
theorem foldl_reverse_foldl {α β : Type} {f g : α → β → α} (h : ∀ a b, g (f a b) b = a) (l : List β) (a : α) :
    l.reverse.foldl g (l.foldl f a) = a := by
  induction l generalizing a with
  | nil => rfl
  | cons b l ih =>
    rw [List.reverse_cons, List.foldl_append]
    exact (congrArg (g · b) (ih (f a b))).trans (h a b)

/-- Settles O13: each round undoes its inverse and is undone by it. -/
theorem alzetteInverseUndoes : Obligations.AlzetteInverseUndoes := by
  refine fun c b => ⟨foldl_reverse_foldl (alzetteRoundInv_alzetteRound c) _ b, ?_⟩
  have h := foldl_reverse_foldl (alzetteRound_alzetteRoundInv c) alzetteRotations.reverse b
  rwa [List.reverse_reverse] at h

theorem alzette_injective (c : Word) : Function.Injective (alzette c) :=
  Function.LeftInverse.injective fun b => (alzetteInverseUndoes c b).1

/-- Settles O9: the eight words are the table's, and their distinctness is evaluated. -/
theorem roundConstantTable : Obligations.RoundConstantTable := by
  have hdistinct : ∀ i j : Fin 8, rcon.get i = rcon.get j → i = j := by decide
  exact ⟨rfl, rfl, rfl, rfl, rfl, rfl, rfl, rfl,
    fun i j hi hj h => congrArg Fin.val (hdistinct ⟨i, hi⟩ ⟨j, hj⟩ h)⟩

/-! ### The three parts of the step are injective (40_permutation.md R136 to R140) -/

/-- Two permutation states with the same eight branches are equal. -/
theorem SparkleState.ext_branch {p q : SparkleState}
    (h : ∀ j, j < 8 → p.x.get j = q.x.get j ∧ p.y.get j = q.y.get j) : p = q := by
  cases p
  cases q
  exact congrArg₂ _ (Words8.ext_get fun j hj => (h j hj).1) (Words8.ext_get fun j hj => (h j hj).2)

/-- Injecting the constants a second time takes them out. -/
theorem injectConstants_injective (s : Nat) : Function.Injective (injectConstants s) := by
  refine Function.Involutive.injective fun p => SparkleState.ext_branch fun j hj => ⟨rfl, ?_⟩
  match j with
  | 0 => rw [injectConstants_y_zero, injectConstants_y_zero, BitVec.xor_assoc, BitVec.xor_self, BitVec.xor_zero]
  | 1 => rw [injectConstants_y_one, injectConstants_y_one, BitVec.xor_assoc, BitVec.xor_self, BitVec.xor_zero]
  | j + 2 => rw [injectConstants_y_of_two_le _ _ (by omega), injectConstants_y_of_two_le _ _ (by omega)]

/-- The Alzette layer works on each branch by itself, and Alzette is injective. -/
theorem alzetteLayer_injective (nb : Nat) : Function.Injective (alzetteLayer nb) := by
  refine fun p q h => SparkleState.ext_branch fun j hj => Prod.mk.inj ?_
  have hbranch : alzetteBranch nb p j = alzetteBranch nb q j := by
    rw [← alzetteLayer_get nb p hj, ← alzetteLayer_get nb q hj, h]
  rw [alzetteBranch_eq nb p hj, alzetteBranch_eq nb q hj] at hbranch
  by_cases hnb : j < nb
  · rw [if_pos hnb, if_pos hnb] at hbranch
    exact alzette_injective _ hbranch
  · rwa [if_neg hnb, if_neg hnb] at hbranch

/-- The fold reads the words below its bound alone. -/
theorem foldXor_congr {h : Nat} {u v : Words8} (huv : ∀ i, i < h → u.get i = v.get i) : foldXor h u = foldXor h v :=
  List.foldl_ext _ _ _ fun a i hi => by rw [huv i (List.mem_range.mp hi)]

/-- Every position of the right half is the successor of one, round the half. -/
theorem exists_succ_mod {r h : Nat} (hr : r < h) : ∃ i, i < h ∧ (i + 1) % h = r := by
  cases r with
  | zero => exact ⟨h - 1, by omega, by rw [Nat.sub_add_cancel hr, Nat.mod_self]⟩
  | succ r => exact ⟨r, by omega, Nat.mod_eq_of_lt hr⟩

/-- With the same fold `t`, the layer of one array fixes the array: its right half is the old left half, and that and
`t` are taken out of its left half. -/
theorem layerArray_injective {nb : Nat} (hnb : nb ≤ 8) (heven : nb = 2 * (nb / 2)) (t : Word) :
    Function.Injective (layerArray nb t) := by
  intro u v h
  have hword (j : Nat) : (layerArray nb t u).get j = (layerArray nb t v).get j := by rw [h]
  have hleft (i : Nat) (hi : i < nb / 2) : u.get i = v.get i := by
    simpa only [layerArray_get_right hnb hi] using hword (nb / 2 + i)
  have hright (r : Nat) (hr : r < nb / 2) : u.get (nb / 2 + r) = v.get (nb / 2 + r) := by
    obtain ⟨i, hi, rfl⟩ := exists_succ_mod hr
    simpa only [layerArray_get_left hnb hi, hleft _ hr, BitVec.xor_left_inj] using hword i
  refine Words8.ext_get fun j _ => ?_
  rcases Nat.lt_or_ge j (nb / 2) with hj | hj
  · exact hleft j hj
  rcases Nat.lt_or_ge j nb with hj' | hj'
  · simpa only [Nat.add_sub_cancel' hj] using hright (j - nb / 2) (by omega)
  · simpa only [layerArray_get_above hj'] using hword j

/-- The linear layer leaves both left halves readable, so both folds are known. -/
theorem linearLayer_injective {nb : Nat} (hnb : nb ≤ 8) (heven : nb = 2 * (nb / 2)) :
    Function.Injective (linearLayer nb) := by
  intro p q h
  have hx := congrArg SparkleState.x h
  have hy := congrArg SparkleState.y h
  rw [linearLayer_x, linearLayer_x] at hx
  rw [linearLayer_y, linearLayer_y] at hy
  have hfoldX : foldXor (nb / 2) p.x = foldXor (nb / 2) q.x := foldXor_congr fun i hi => by
    simpa only [layerArray_get_right hnb hi] using congrArg (Words8.get · (nb / 2 + i)) hx
  have hfoldY : foldXor (nb / 2) p.y = foldXor (nb / 2) q.y := foldXor_congr fun i hi => by
    simpa only [layerArray_get_right hnb hi] using congrArg (Words8.get · (nb / 2 + i)) hy
  rw [hfoldY] at hx
  rw [hfoldX] at hy
  have hinj := layerArray_injective hnb heven
  exact SparkleState.ext_branch fun j _ => ⟨by rw [hinj _ hx], by rw [hinj _ hy]⟩

/-! ### The permutation (40_permutation.md R130, R141) -/

theorem sparkle_injective {nb : Nat} (hnb : nb ≤ 8) (heven : nb = 2 * (nb / 2)) (steps : Nat) :
    Function.Injective (sparkle nb steps) := by
  induction steps with
  | zero => exact Function.injective_id
  | succ n ih =>
    exact (linearLayer_injective hnb heven).comp
      ((alzetteLayer_injective nb).comp ((injectConstants_injective n).comp ih))

/-- A permutation state is sixteen words. -/
theorem finite_sparkleState : Finite SparkleState :=
  Finite.of_injective (fun (p : SparkleState) (j : Fin 8) => (p.x.get j, p.y.get j)) fun _ _ h =>
    SparkleState.ext_branch fun j hj => Prod.mk.inj (congrFun h ⟨j, hj⟩)

/-- A branch at or above the size, past index 8 as well, is left by the Alzette layer. -/
theorem alzetteLayer_get_above {nb j : Nat} (hj : nb ≤ j) (p : SparkleState) :
    (alzetteLayer nb p).x.get j = p.x.get j ∧ (alzetteLayer nb p).y.get j = p.y.get j := by
  have hbranch : alzetteBranch nb p j = (p.x.get j, p.y.get j) := if_neg (by omega)
  exact ⟨Words8.get_ofFn_eq_get (congrArg Prod.fst hbranch), Words8.get_ofFn_eq_get (congrArg Prod.snd hbranch)⟩

/-- A step writes no branch at or above the size. -/
theorem sparkleStep_get_above {nb j : Nat} (hnb : 2 ≤ nb) (hj : nb ≤ j) (s : Nat) (p : SparkleState) :
    (sparkleStep nb s p).x.get j = p.x.get j ∧ (sparkleStep nb s p).y.get j = p.y.get j := by
  obtain ⟨hx, hy⟩ := alzetteLayer_get_above hj (injectConstants s p)
  rw [sparkleStep, linearLayer_x, linearLayer_y, layerArray_get_above hj, layerArray_get_above hj, hx, hy,
    injectConstants_x, injectConstants_y_of_two_le s p (by omega)]
  exact ⟨rfl, rfl⟩

theorem sparkle_get_above {nb j : Nat} (hnb : 2 ≤ nb) (hj : nb ≤ j) (steps : Nat) (p : SparkleState) :
    (sparkle nb steps p).x.get j = p.x.get j ∧ (sparkle nb steps p).y.get j = p.y.get j := by
  induction steps with
  | zero => exact ⟨rfl, rfl⟩
  | succ n ih =>
    obtain ⟨hx, hy⟩ := sparkleStep_get_above hnb hj n (sparkle nb n p)
    exact ⟨hx.trans ih.1, hy.trans ih.2⟩

/-- Settles O15: Sparkle is injective, as each part of its step is, on a finite set; and no step writes above the
size. -/
theorem sparkleIsPermutation : Obligations.SparkleIsPermutation := by
  intro nb steps hnb
  have hfinite := finite_sparkleState
  exact ⟨Finite.injective_iff_bijective.mp (sparkle_injective (by omega) (by omega) steps),
    fun p _ hj => sparkle_get_above (by omega) hj steps p⟩

/-! ### PERM (40_permutation.md R143) -/

/-- The size that NB selects (30_encoding.md R94). -/
theorem branchesOf_eq : ∀ nb : BitVec 2, nb ≠ 3 → branchesOf nb = 4 + 2 * nb.toNat := by decide

theorem commandError_perm_eq_ok {s : State} {nb : BitVec 2} {steps : BitVec 8} :
    commandError s (.perm nb steps) = .ok ↔ nb ≠ 3 ∧ s.phase = .idle ∧ steps ≠ 0 := by
  rw [commandError_perm, check_eq_ok (by decide), check_eq_ok (by decide), last_check_eq_ok (by decide), nbLegal,
    bne_iff_ne, beq_iff_eq, bne_iff_ne]

/-- Settles O31: PERM runs Sparkle of the size that NB selects, which stays in IDLE. -/
theorem permPermutesState : Obligations.PermPermutesState := by
  intro nb steps s hphase hnb hsteps
  refine ⟨_, rfl, fun j hj => sparkle_get_above (by omega) hj _ _, ?_⟩
  rw [exec_of_ok (commandError_perm_eq_ok.mpr ⟨hnb, hphase, hsteps⟩), commandEffect, branchesOf_eq nb hnb, ← hphase]
  rfl

end Sys2Proof.Machine
end

section
/-!
STATUS bit by bit (10_state.md R31 to R38), what a host can see (20_memory.md R82), and everything that one cycle of
the outside can do, busy or not (20_memory.md R61 to R76, 70_reset_and_hazards.md R280).
-/

namespace Sys2Proof.Machine

/-! ### STATUS (10_state.md R31 to R38) -/

/-- Settles O36: STATUS is made of fields in places of their own, so each is read back and the gaps are zero. -/
theorem statusBits : Obligations.StatusBits := by
  intro s
  simp (disch := decide) only [statusWord, bitAt, BitVec.extractLsb'_or, extractLsb'_placed,
    extractLsb'_placed_elsewhere, BitVec.zero_or, BitVec.or_zero, true_and]
  refine ⟨?key, ?nonce, ?dir, rfl, ?phase, ?phaseNotSeven, rfl, ?err, ?errAtMostSix, rfl, fun _ => rfl⟩
  case key | nonce | dir => rfl
  case phase => cases s.phase <;> rfl
  case phaseNotSeven => cases s.phase <;> decide
  case err => cases s.err <;> rfl
  case errAtMostSix => cases s.err <;> decide

/-! ### What a host can see (20_memory.md R82) -/

/-- Settles O48: STATE shows the permutation state in IDLE alone and TAG the capacity in DONE of an encrypt session
alone; no other register reads a field that the states may differ in. -/
theorem secretsAreNotReadable : Obligations.SecretsAreNotReadable := by
  rintro s t r ⟨hagree, hidle, hdone⟩
  have hphase : s.phase = t.phase := (congrArg State.phase hagree :)
  have hdir : s.dir = t.dir := (congrArg State.dir hagree :)
  have hdin : s.din = t.din := (congrArg State.din hagree :)
  have hdout : s.dout = t.dout := (congrArg State.dout hagree :)
  cases r with
  | cmd | reserved | key | nonce | tagin => rfl
  | status => exact (congrArg statusWord hagree :)
  | din k => rw [readReg, readReg, hdin]
  | dout k => rw [readReg, readReg, hdout]
  | state k =>
    rw [readReg, readReg, ← hphase]
    by_cases h : s.phase = .idle
    · rw [hidle h]
    · rw [if_neg h, if_neg h]
  | tag k =>
    have hvisible : tagVisible s = tagVisible t := by rw [tagVisible, tagVisible, hphase, hdir]
    rw [readReg, readReg, ← hvisible]
    by_cases h : tagVisible s = true
    · obtain ⟨hp, hd⟩ := (tagVisible_iff s).mp h
      rw [← get_capacityWords _ k.isLt, ← get_capacityWords _ k.isLt, hdone hp hd]
    · rw [if_neg h, if_neg h]

/-- Settles O41: the window is the 512 addresses from the base on, which is aligned by construction. -/
theorem windowOfPlatformAddresses : Obligations.WindowOfPlatformAddresses := by
  refine ⟨Nat.mul_mod_right 512 _, fun addr off => ?_⟩
  rw [windowOffset, windowBytes, Option.ite_none_right_eq_some, Option.some.injEq]
  omega

/-! ### One event of the outside -/

/-- In a cycle the next event takes place after a cycle of the latency has passed. -/
theorem hostCycle_cons {s : State} {e : HostEvent} {rest : List HostEvent} (hq : s.hostQueue = e :: rest) :
    hostCycle s = hostEvent e { s.tick with hostQueue := rest } := by
  rw [hostCycle, hq]

/-- Settles O38: with no completion due, the reset input is the cycle's event. -/
theorem resetInputResets : Obligations.ResetInputResets :=
  fun _ _ hc hq => (step_of_cycle hc).trans (hostCycle_cons hq)

/-- With no completion due, an access is the cycle's event. -/
theorem step_of_access_in_cycle {s : State} {a : Access} {rest : List HostEvent} (hc : completesNow s = false)
    (hq : s.hostQueue = .access a :: rest) : step s = hostAccess a { s.tick with hostQueue := rest } :=
  (step_of_cycle hc).trans (hostCycle_cons hq)

/-! ### Stops (20_memory.md R61, R64) -/

theorem hostAccess_eq_fault {a : Access} {s : State} {f : Fault} :
    hostAccess a s = .fault f ↔ windowBytes ≤ a.offset ∧ f = .outsideWindow a.offset := by
  unfold hostAccess
  by_cases h : windowBytes ≤ a.offset
  · simp [h, eq_comm]
  · cases a.isWord <;> cases a.op <;> simp [h]

theorem hostAccess_eq_refused {a : Access} {s : State} {r : Refusal} :
    hostAccess a s = .refused r ↔ a.offset < windowBytes ∧ a.isWord = false ∧ r = .subwordAccess := by
  unfold hostAccess
  by_cases h : windowBytes ≤ a.offset
  · simp [h]
  · cases a.isWord <;> cases a.op <;> simp [h, eq_comm, Nat.not_le.mp h]

/-- A completion answers a next state: every command and the word that is no command have a meaning. -/
theorem exists_next_of_completes {s : State} (hc : completesNow s = true) : ∃ t, step s = .next t := by
  cases hi : pendingCommand s with
  | some i => exact ⟨_, (step_of_command hc hi).trans (exec_eq i s)⟩
  | none => exact ⟨_, step_of_illegal hc hi⟩

/-- A step that answers no next state is the host's access, with no completion due. -/
theorem step_eq_stop {s : State} {r : Result} (hr : ∀ t, r ≠ .next t) :
    step s = r ↔ ∃ a rest, completesNow s = false ∧ s.hostQueue = .access a :: rest ∧
      hostAccess a { s.tick with hostQueue := rest } = r := by
  constructor
  case mpr =>
    rintro ⟨a, rest, hc, hq, h⟩
    rw [step_of_access_in_cycle hc hq, h]
  case mp =>
    rintro rfl
    cases hc : completesNow s with
    | true =>
      obtain ⟨t, ht⟩ := exists_next_of_completes hc
      exact absurd ht (hr t)
    | false =>
      rw [step_of_cycle hc] at hr ⊢
      cases hq : s.hostQueue with
      | nil => exact absurd (by rw [hostCycle, hq]) (hr s.tick)
      | cons e rest =>
        rw [hostCycle_cons hq] at hr ⊢
        cases e with
        | access a => exact ⟨a, rest, rfl, rfl, rfl⟩
        | idle | poll | reset => exact absurd rfl (hr _)

/-- Settles O7: a step that stops is an access (`step_eq_stop`), which answers the fault past the window and the
refusal otherwise. -/
theorem stepStopsOnlyOnBadAccess : Obligations.StepStopsOnlyOnBadAccess := by
  refine fun s => ⟨fun f => ?fault, fun r => ?refused⟩
  case fault =>
    rw [step_eq_stop (by simp)]
    simp only [hostAccess_eq_fault]
  case refused =>
    rw [step_eq_stop (by simp)]
    simp only [hostAccess_eq_refused]

/-! ### Accesses while BUSY = 1 (20_memory.md R73, R75) -/

/-- While BUSY = 1 a write is dropped and sets OVERRUN. -/
theorem State.hostWrite_of_busy {s : State} (h : s.busy = true) (off : Nat) (v : Word) :
    s.hostWrite off v = { s with overrun := true } := by
  rw [State.hostWrite, if_pos h]

/-- STATUS always has a value of its own. -/
theorem State.hostRead_status (s : State) :
    s.hostRead statusOffset = { s with reads := ⟨statusOffset, statusWord s⟩ :: s.reads } := by
  have hreg : regAt statusOffset = .status := rfl
  simp [State.hostRead, hreg, readValue, readIsFree, readReg]

/-- A word write in the window while BUSY = 1, with no completion due. -/
theorem step_of_write_while_busy {s : State} {a : Access} {v : Word} {rest : List HostEvent} (hbusy : s.busy = true)
    (hc : completesNow s = false) (hq : s.hostQueue = .access a :: rest) (hop : a.op = .write v)
    (hword : a.isWord = true) (hwin : a.offset < windowBytes) :
    step s = .next { s with latLeft := s.latLeft - 1, hostQueue := rest, overrun := true } := by
  rw [step_of_access_in_cycle hc hq]
  exact hostAccess_eq_next.mpr
    ⟨hwin, hword, .inr ⟨v, hop, (State.hostWrite_of_busy (s := { s.tick with hostQueue := rest }) hbusy _ v).symm⟩⟩

/-- A word read in the window, with no completion due. -/
theorem step_of_read_in_cycle {s : State} {a : Access} {rest : List HostEvent} (hc : completesNow s = false)
    (hq : s.hostQueue = .access a :: rest) (hop : a.op = .read) (hword : a.isWord = true)
    (hwin : a.offset < windowBytes) :
    step s = .next (({ s.tick with hostQueue := rest } : State).hostRead a.offset) := by
  rw [step_of_access_in_cycle hc hq]
  exact hostAccess_eq_next.mpr ⟨hwin, hword, .inl ⟨hop, rfl⟩⟩

/-- Settles O40: a write, a read of STATUS, and any other read, each as a step. -/
theorem accessesWhileBusy : Obligations.AccessesWhileBusy := by
  intro s rest a hbusy hlat hq hword hwin
  have hc : completesNow s = false := by simp [completesNow, hlat]
  refine ⟨fun v hop => step_of_write_while_busy hbusy hc hq hop hword hwin, fun hop hoff => ?status,
    fun hop _ => ⟨_, _, step_of_read_in_cycle hc hq hop hword hwin⟩⟩
  case status =>
    rw [step_of_read_in_cycle hc hq hop hword hwin, show a.offset = statusOffset from hoff, State.hostRead_status]
    rfl

end Sys2Proof.Machine
end

section
/-!
What a step can change (10_state.md R27 to R37, 42_control.md R236 to R239): the frame of a cycle of the outside and of
a command in a session, and from it the machine's invariant, the life of a session, and OVERRUN.
-/

namespace Sys2Proof.Machine

/-! ### The frame of a cycle of the outside -/

/-- `t` is `s` after a cycle that reached no register: a cycle of the latency has passed, and the host may have taken
an event and read. -/
def QuietCycle (s t : State) : Prop :=
  t = { s with
    latLeft := s.latLeft - 1, hostQueue := t.hostQueue, reads := t.reads, freeCount := t.freeCount }

/-- A cycle is quiet, or a quiet one with a host write or the reset input after it. -/
theorem hostCycle_cases {s t : State} (h : hostCycle s = .next t) :
    ∃ u, QuietCycle s u ∧
      (t = u ∨
      (∃ a v rest, s.hostQueue = .access a :: rest ∧ a.op = .write v ∧ t = u.hostWrite a.offset v) ∨
      (∃ rest, s.hostQueue = .reset :: rest ∧ t = u.applyReset)) := by
  rcases hostCycle_eq_next h with ⟨-, rfl⟩ | ⟨e, rest, hq, he⟩
  · exact ⟨s.tick, rfl, .inl rfl⟩
  rcases hostEvent_eq_next he with ⟨-, rfl⟩ | ⟨a, rfl, -, -, hread | ⟨v, hop, rfl⟩⟩ | ⟨-, -, rfl⟩ | ⟨-, -, rfl⟩ |
    ⟨rfl, rfl⟩
  · exact ⟨_, by exact rfl, .inl rfl⟩
  · obtain ⟨-, rfl⟩ := hread
    exact ⟨_, by exact rfl, .inl rfl⟩
  · exact ⟨_, by exact rfl, .inr (.inl ⟨a, v, rest, hq, hop, rfl⟩)⟩
  · exact ⟨_, by exact rfl, .inl rfl⟩
  · exact ⟨_, by exact rfl, .inl rfl⟩
  · exact ⟨_, by exact rfl, .inr (.inr ⟨rest, hq, rfl⟩)⟩

/-- The fields that no host write reaches. -/
theorem writeReg_frame (s : State) (v : Word) (r : Reg) :
    (writeReg s v r).phase = s.phase ∧ (writeReg s v r).dir = s.dir ∧ (writeReg s v r).err = s.err ∧
    (writeReg s v r).authOk = s.authOk ∧ (writeReg s v r).dout = s.dout ∧
    (writeReg s v r).overrun = s.overrun := by
  cases r with
  | cmd | status | reserved | din | dout | tag | tagin => exact ⟨rfl, rfl, rfl, rfl, rfl, rfl⟩
  | state k | key k | nonce k => rw [writeReg]; split <;> exact ⟨rfl, rfl, rfl, rfl, rfl, rfl⟩

/-- KEY, NONCE, their masks and DIR are in `t` as in `s`. -/
def KeepsKeyAndDir (s t : State) : Prop :=
  t.key = s.key ∧ t.keyMask = s.keyMask ∧ t.nonce = s.nonce ∧ t.nonceMask = s.nonceMask ∧ t.dir = s.dir

theorem KeepsKeyAndDir.refl (s : State) : KeepsKeyAndDir s s := ⟨rfl, rfl, rfl, rfl, rfl⟩

theorem KeepsKeyAndDir.trans {s t u : State} (h : KeepsKeyAndDir s t) (h' : KeepsKeyAndDir t u) :
    KeepsKeyAndDir s u := by
  obtain ⟨hk, hkm, hn, hnm, hd⟩ := h
  obtain ⟨hk', hkm', hn', hnm', hd'⟩ := h'
  exact ⟨hk'.trans hk, hkm'.trans hkm, hn'.trans hn, hnm'.trans hnm, hd'.trans hd⟩

theorem QuietCycle.keeps {s t : State} (h : QuietCycle s t) : KeepsKeyAndDir s t :=
  ⟨(congrArg State.key h :), (congrArg State.keyMask h :), (congrArg State.nonce h :),
    (congrArg State.nonceMask h :), (congrArg State.dir h :)⟩

theorem QuietCycle.phase_eq {s t : State} (h : QuietCycle s t) : t.phase = s.phase := (congrArg State.phase h :)

theorem QuietCycle.overrun_eq {s t : State} (h : QuietCycle s t) : t.overrun = s.overrun :=
  (congrArg State.overrun h :)

theorem QuietCycle.busy_eq {s t : State} (h : QuietCycle s t) : t.busy = s.busy := (congrArg State.busy h :)

/-- A host write in a session reaches neither KEY nor NONCE (20_memory.md R67). -/
theorem writeReg_keeps_in_session {s : State} (hs : s.phase ≠ .idle) (v : Word) (r : Reg) :
    KeepsKeyAndDir s (writeReg s v r) := by
  cases r with
  | cmd | status | reserved | din | dout | tag | tagin => exact .refl s
  | state k | key k | nonce k => rw [writeReg, if_neg hs]; exact .refl s

/-- A host write is dropped while BUSY = 1, which sets OVERRUN, and reaches its register otherwise. -/
theorem State.hostWrite_cases (s : State) (off : Nat) (v : Word) :
    (s.busy = true ∧ s.hostWrite off v = { s with overrun := true }) ∨
    (s.busy = false ∧ s.hostWrite off v = writeReg s v (regAt off)) := by
  by_cases hbusy : s.busy = true
  · exact .inl ⟨hbusy, State.hostWrite_of_busy hbusy off v⟩
  · replace hbusy : s.busy = false := by simpa using hbusy
    exact .inr ⟨hbusy, State.hostWrite_of_not_busy hbusy off v⟩

theorem State.hostWrite_phase (s : State) (off : Nat) (v : Word) : (s.hostWrite off v).phase = s.phase := by
  rcases s.hostWrite_cases off v with ⟨-, h⟩ | ⟨-, h⟩
  · rw [h]
  · rw [h, (writeReg_frame s v _).1]

theorem State.hostWrite_keeps_in_session {s : State} (hs : s.phase ≠ .idle) (off : Nat) (v : Word) :
    KeepsKeyAndDir s (s.hostWrite off v) := by
  rcases s.hostWrite_cases off v with ⟨-, h⟩ | ⟨-, h⟩ <;> rw [h]
  · exact .refl s
  · exact writeReg_keeps_in_session hs v _

/-! ### The frame of a command without an error -/

/-- In a session a command that reports no error ends it zeroized, which VERIFY and CLEAR alone do, or goes on with it
(42_control.md R236 to R239). -/
theorem commandEffect_in_session {i : Instr} {s : State} (hs : s.phase ≠ .idle) (hok : commandError s i = .ok) :
    ((i = .verify ∨ i = .clear) ∧ (commandEffect i s).zeroized) ∨
    ((commandEffect i s).phase ≠ .idle ∧ KeepsKeyAndDir s (commandEffect i s)) := by
  cases i with
  | nop => exact .inr ⟨hs, .refl s⟩
  | init dir => exact absurd ((commandError_init_eq_ok dir).mp hok).1 hs
  | perm nb steps => exact absurd (commandError_perm_eq_ok.mp hok).2.1 hs
  | verify => exact .inl ⟨.inl rfl, s.clearAuth.zeroize_zeroized⟩
  | clear => exact .inl ⟨.inr rfl, s.clearAuth.zeroize_zeroized⟩
  | aadBlock | aadFinal | encBlock | encFinal | decBlock | decFinal | finalize =>
    exact .inr ⟨by simp [commandEffect], .refl s⟩

/-- In IDLE a command that reports no error stays there, or is an INIT with the whole key and nonce written. -/
theorem commandEffect_in_idle {i : Instr} {s : State} (hs : s.phase = .idle) (hok : commandError s i = .ok) :
    (∃ d, i = .init d ∧ s.keyMask = 0xFF ∧ s.nonceMask = 0xFF) ∨ (commandEffect i s).phase = .idle := by
  cases i with
  | nop => exact .inr hs
  | init dir =>
    obtain ⟨-, hkey, hnonce⟩ := (commandError_init_eq_ok dir).mp hok
    exact .inl ⟨dir, rfl, hkey, hnonce⟩
  | perm nb steps | verify | clear => exact .inr rfl
  | aadBlock => simp [commandError_aadBlock_eq_ok, hs] at hok
  | aadFinal len => simp [commandError_aadFinal_eq_ok, hs] at hok
  | encBlock => simp [commandError_encBlock_eq_ok, hs] at hok
  | encFinal len => simp [commandError_encFinal_eq_ok, hs] at hok
  | decBlock => simp [commandError_decBlock_eq_ok, hs] at hok
  | decFinal len => simp [commandError_decFinal_eq_ok, hs] at hok
  | finalize => simp [commandError_finalize_eq_ok, hs] at hok

/-- INIT alone takes IDLE to a session. -/
theorem in_session_of_commandEffect {i : Instr} {s : State} (hok : commandError s i = .ok) (hi : ∀ d, i ≠ .init d)
    (hphase : (commandEffect i s).phase ≠ .idle) : s.phase ≠ .idle := by
  intro hidle
  rcases commandEffect_in_idle hidle hok with ⟨d, hinit, -⟩ | hstays
  · exact hi d hinit
  · exact hphase hstays

theorem commandEffect_err (i : Instr) (s : State) : (commandEffect i s).err = .ok := by
  cases i <;> rfl

/-- OVERRUN is left by every command but CLEAR (42_control.md R234). -/
theorem exec_overrun {i : Instr} {s t : State} (h : exec i s = .next t) :
    t.overrun = if i = .clear then false else s.overrun := by
  rcases exec_eq_next.mp h with ⟨-, rfl⟩ | ⟨herr, rfl⟩
  · cases i <;> rfl
  · have hi : i ≠ .clear := by
      rintro rfl
      exact herr rfl
    rw [State.raiseError_overrun, if_neg hi]

/-! ### The invariant (State.Inv) -/

/-- The invariant does not speak of what a quiet cycle changes but for the latency, which only falls. -/
theorem State.Inv.quiet {s t : State} (h : s.Inv) (hq : QuietCycle s t) : t.Inv := by
  rw [hq]
  exact ⟨h.dir_idle, h.session_loaded, h.auth_ok, fun hbusy => by simp [h.idle_latency hbusy],
    fun hbusy => Nat.le_trans (Nat.sub_le _ _) (h.latency_bound hbusy), h.dout_clear⟩

/-- A host write starts a command with its whole latency ahead, changes a mask in IDLE alone, or reaches nothing that
the invariant speaks of. -/
theorem State.Inv.writeReg {s : State} (h : s.Inv) (v : Word) (r : Reg) : (writeReg s v r).Inv := by
  cases r with
  | cmd =>
    exact ⟨h.dir_idle, h.session_loaded, h.auth_ok, fun hbusy => (nomatch hbusy), fun _ => Nat.le_refl _, h.dout_clear⟩
  | status | reserved | dout | tag => exact h
  | din | tagin =>
    exact ⟨h.dir_idle, h.session_loaded, h.auth_ok, h.idle_latency, h.latency_bound, h.dout_clear⟩
  | state k | key k | nonce k =>
    rw [Machine.writeReg]
    split
    next hidle =>
      exact ⟨h.dir_idle, fun hs => absurd hidle hs, h.auth_ok, h.idle_latency, h.latency_bound, h.dout_clear⟩
    next => exact h

theorem State.Inv.hostWrite {s : State} (h : s.Inv) (off : Nat) (v : Word) : (s.hostWrite off v).Inv := by
  rcases s.hostWrite_cases off v with ⟨-, hw⟩ | ⟨-, hw⟩ <;> rw [hw]
  · exact ⟨h.dir_idle, h.session_loaded, h.auth_ok, h.idle_latency, h.latency_bound, h.dout_clear⟩
  · exact h.writeReg v _

/-- Settles O43, clause by clause. -/
theorem resetMeetsInvariant : Obligations.ResetMeetsInvariant :=
  ⟨fun _ => rfl, fun hs => absurd rfl hs, fun hauth => (nomatch hauth), fun _ => rfl, fun _ => Nat.zero_le _,
    fun _ => rfl⟩

theorem State.applyReset_inv (s : State) : s.applyReset.Inv :=
  have h := resetMeetsInvariant
  ⟨h.dir_idle, h.session_loaded, h.auth_ok, h.idle_latency, h.latency_bound, h.dout_clear⟩

/-- The end of a completion has no latency left, so the clauses on it hold. -/
theorem State.Inv.of_completed {t : State} (hbusy : t.busy = false) (hlat : t.latLeft = 0)
    (hdir : t.phase = .idle → t.dir = .encrypt) (hloaded : t.phase ≠ .idle → t.keyMask = 0xFF ∧ t.nonceMask = 0xFF)
    (hauth : t.authOk = true → t.err = .ok ∧ t.phase = .idle)
    (hdout : t.phase = .idle ∨ t.phase = .aadStart ∨ t.phase = .aadMid ∨ t.phase = .dataStart →
      t.dout = Words8.zero) : t.Inv :=
  ⟨hdir, hloaded, hauth, fun _ => hlat, fun h => absurd (hbusy.symm.trans h) (by decide), hdout⟩

theorem State.Inv.raiseError {s : State} (h : s.Inv) (e : ErrCode) : (s.raiseError e).Inv := by
  rcases s.endSession_cases e with hz | ⟨hidle, -, hz⟩ <;> rw [State.raiseError, hz]
  · exact .of_completed rfl rfl (fun _ => rfl) (fun hs => absurd rfl hs) (fun hauth => (nomatch hauth)) (fun _ => rfl)
  · exact .of_completed rfl rfl h.dir_idle h.session_loaded (fun hauth => (nomatch hauth)) h.dout_clear

/-- A command that goes on with a session keeps the invariant, if DOUT is clear in the phases that need it. -/
theorem State.Inv.advance_in_session {s : State} (h : s.Inv) {p : SparkleState} {q : Phase} {o : Words8}
    (hs : s.phase ≠ .idle) (hq : q ≠ .idle)
    (hdout : q = .aadStart ∨ q = .aadMid ∨ q = .dataStart → o = Words8.zero) :
    ((s.clearAuth.advance p q).setDout o).succeed.Inv :=
  .of_completed rfl rfl (fun hi => absurd hi hq) (fun _ => h.session_loaded hs) (fun hauth => (nomatch hauth))
    (fun hphase => hdout (hphase.resolve_left hq))

/-- A command that reports no error keeps the invariant: INIT checks the masks, the AAD commands and FINALIZE do not
write DOUT, the data commands leave the phases with DOUT clear, and VERIFY's AUTH_OK comes with a zeroize. -/
theorem State.Inv.commandEffect {i : Instr} {s : State} (h : s.Inv) (hok : commandError s i = .ok) :
    (commandEffect i s).Inv := by
  cases i with
  | nop => exact .of_completed rfl rfl h.dir_idle h.session_loaded (fun hauth => (nomatch hauth)) h.dout_clear
  | init dir =>
    obtain ⟨hidle, hkey, hnonce⟩ := (commandError_init_eq_ok dir).mp hok
    exact .of_completed rfl rfl (fun hi => (nomatch hi)) (fun _ => ⟨hkey, hnonce⟩) (fun hauth => (nomatch hauth))
      (fun _ => h.dout_clear (.inl hidle))
  | aadBlock =>
    have hs := in_session_of_commandEffect hok (by simp) (by simp [Machine.commandEffect])
    have hphase := commandError_aadBlock_eq_ok.mp hok
    exact h.advance_in_session (o := s.dout) hs (by decide) (fun _ => h.dout_clear (.inr (hphase.imp_right .inl)))
  | aadFinal len =>
    have hs := in_session_of_commandEffect hok (by simp) (by simp [Machine.commandEffect])
    obtain ⟨hphase, -⟩ := commandError_aadFinal_eq_ok.mp hok
    exact h.advance_in_session (o := s.dout) hs (by decide) (fun _ => h.dout_clear (.inr (hphase.imp_right .inl)))
  | encBlock | encFinal len | decBlock | decFinal len =>
    have hs := in_session_of_commandEffect hok (by simp) (by simp [Machine.commandEffect])
    exact h.advance_in_session hs (by decide) (fun hq => absurd hq (by decide))
  | finalize =>
    have hs := in_session_of_commandEffect hok (by simp) (by simp [Machine.commandEffect])
    exact h.advance_in_session (o := s.dout) hs (by decide) (fun hq => absurd hq (by decide))
  | verify | clear =>
    exact .of_completed rfl rfl (fun _ => rfl) (fun hs => absurd rfl hs) (fun _ => ⟨rfl, rfl⟩) (fun _ => rfl)
  | perm nb steps =>
    obtain ⟨-, hidle, -⟩ := commandError_perm_eq_ok.mp hok
    exact .of_completed rfl rfl (fun _ => h.dir_idle hidle) (fun hs => absurd rfl hs) (fun hauth => (nomatch hauth))
      (fun _ => h.dout_clear (.inl hidle))

end Sys2Proof.Machine
end

section
/-!
Claims about every step: the invariant (10_state.md R27 to R37), the life of a session (42_control.md R236 to R239),
OVERRUN (10_state.md R36), and that control does not depend on data (60_exceptions.md R266).
-/

namespace Sys2Proof.Machine

/-! ### The invariant -/

/-- Settles O42: a completion is an effect or an error, and a cycle is a quiet one with at most one write or reset; each
keeps the invariant. -/
theorem stepKeepsInvariant : Obligations.StepKeepsInvariant := by
  intro s t h hstep
  rcases step_eq_next hstep with ⟨-, i, -, hexec⟩ | ⟨-, -, rfl⟩ | ⟨-, hcycle⟩
  case inl =>
    rcases exec_eq_next.mp hexec with ⟨hok, rfl⟩ | ⟨-, rfl⟩
    · exact h.commandEffect hok
    · exact h.raiseError _
  case inr.inl => exact h.raiseError _
  case inr.inr =>
    obtain ⟨u, hquiet, rfl | ⟨a, v, rest, -, -, rfl⟩ | ⟨rest, -, rfl⟩⟩ := hostCycle_cases hcycle
    · exact h.quiet hquiet
    · exact (h.quiet hquiet).hostWrite _ v
    · exact u.applyReset_inv

/-! ### Sessions (42_control.md R236 to R239) -/

/-- A cycle that is not the reset input keeps PHASE, and in a session KEY, NONCE and DIR. -/
theorem hostCycle_session {s t : State} (h : hostCycle s = .next t) :
    (t.phase = s.phase ∧ (s.phase ≠ .idle → KeepsKeyAndDir s t)) ∨
    (t.zeroized ∧ ∃ rest, s.hostQueue = .reset :: rest) := by
  obtain ⟨u, hquiet, rfl | ⟨a, v, rest, -, -, rfl⟩ | ⟨rest, hq, rfl⟩⟩ := hostCycle_cases h
  · exact .inl ⟨hquiet.phase_eq, fun _ => hquiet.keeps⟩
  · refine .inl ⟨(u.hostWrite_phase _ v).trans hquiet.phase_eq, fun hs => hquiet.keeps.trans ?_⟩
    exact State.hostWrite_keeps_in_session (hquiet.phase_eq.symm ▸ hs) _ v
  · exact .inr ⟨reset_zeroized, rest, hq⟩

theorem State.zeroized.phase_eq {s : State} (h : s.zeroized) : s.phase = .idle := by
  obtain ⟨-, -, -, -, -, -, -, -, -, hphase⟩ := h
  exact hphase

/-- Settles O44: an error ends in IDLE, and so does every other command from IDLE than INIT; a cycle begins no
session. -/
theorem sessionBeginsOnlyByInit : Obligations.SessionBeginsOnlyByInit := by
  intro s t hstep hs ht
  have hidle : s.phase = .idle := not_not.mp hs
  rcases step_eq_next hstep with ⟨hc, i, hi, hexec⟩ | ⟨-, -, rfl⟩ | ⟨-, hcycle⟩
  case inl =>
    rcases exec_eq_next.mp hexec with ⟨hok, rfl⟩ | ⟨-, rfl⟩
    · rcases commandEffect_in_idle hidle hok with ⟨d, rfl, hkey, hnonce⟩ | hphase
      · exact ⟨hc, d, hi, hkey, hnonce, rfl, rfl, rfl, rfl⟩
      · exact absurd hphase ht
    · exact absurd (s.raiseError_phase _) ht
  case inr.inl => exact absurd (s.raiseError_phase _) ht
  case inr.inr =>
    rcases hostCycle_session hcycle with ⟨hphase, -⟩ | ⟨hzero, -⟩
    · exact absurd (hphase.trans hidle) ht
    · exact absurd hzero.phase_eq ht

/-- Settles O45: an error ends the session, and so does a command that does not keep KEY, NONCE and DIR; a cycle keeps
them or is the reset input, which ends it too. -/
theorem sessionKeepsKeyAndDirection : Obligations.SessionKeepsKeyAndDirection := by
  intro s t hstep hs ht
  rcases step_eq_next hstep with ⟨-, i, -, hexec⟩ | ⟨-, -, rfl⟩ | ⟨-, hcycle⟩
  case inl =>
    rcases exec_eq_next.mp hexec with ⟨hok, rfl⟩ | ⟨-, rfl⟩
    · rcases commandEffect_in_session hs hok with ⟨-, hzero⟩ | ⟨-, hkeeps⟩
      · exact absurd hzero.phase_eq ht
      · exact hkeeps
    · exact absurd (s.raiseError_phase _) ht
  case inr.inl => exact absurd (s.raiseError_phase _) ht
  case inr.inr =>
    rcases hostCycle_session hcycle with ⟨-, hkeeps⟩ | ⟨hzero, -⟩
    · exact hkeeps hs
    · exact absurd hzero.phase_eq ht

/-- Settles O46: an error in a session zeroizes; of the commands without an error VERIFY and CLEAR alone leave the
session, and of the events of a cycle the reset input. -/
theorem sessionEndsZeroized : Obligations.SessionEndsZeroized := by
  intro s t hstep hs ht
  have hidle : t.phase = .idle := not_not.mp ht
  rcases step_eq_next hstep with ⟨hc, i, hi, hexec⟩ | ⟨hc, -, rfl⟩ | ⟨hc, hcycle⟩
  case inl =>
    rcases exec_eq_next.mp hexec with ⟨hok, rfl⟩ | ⟨herr, rfl⟩
    · rcases commandEffect_in_session hs hok with ⟨hend, hzero⟩ | ⟨hphase, -⟩
      · refine ⟨hzero, .inl ⟨hc, ?_⟩⟩
        rcases hend with rfl | rfl
        · exact .inl hi
        · exact .inr (.inl hi)
      · exact absurd hidle hphase
    · exact ⟨State.raiseError_zeroized hs _, .inl ⟨hc, .inr (.inr (by simpa using herr))⟩⟩
  case inr.inl => exact ⟨State.raiseError_zeroized hs _, .inl ⟨hc, .inr (.inr (by simp))⟩⟩
  case inr.inr =>
    rcases hostCycle_session hcycle with ⟨hphase, -⟩ | ⟨hzero, hreset⟩
    · exact absurd (hphase.symm.trans hidle) hs
    · exact ⟨hzero, .inr ⟨hc, hreset⟩⟩

/-! ### OVERRUN (10_state.md R36) -/

/-- After a cycle OVERRUN is as before, unless a write was dropped while BUSY = 1 or the reset input came. -/
theorem hostCycle_overrun {s t : State} (h : hostCycle s = .next t) :
    (t.overrun = s.overrun ∧ ∀ rest, s.hostQueue ≠ .reset :: rest) ∨
    (t.overrun = true ∧ s.busy = true ∧ ∃ a v rest, s.hostQueue = .access a :: rest ∧ a.op = .write v) ∨
    (t.overrun = false ∧ ∃ rest, s.hostQueue = .reset :: rest) := by
  by_cases hreset : ∃ rest, s.hostQueue = .reset :: rest
  · obtain ⟨rest, hq⟩ := hreset
    rw [hostCycle_cons hq, hostEvent, Host.Outcome.next.injEq] at h
    subst h
    exact .inr (.inr ⟨rfl, rest, hq⟩)
  rw [not_exists] at hreset
  obtain ⟨u, hquiet, rfl | ⟨a, v, rest, hq, hop, rfl⟩ | ⟨rest, hq, -⟩⟩ := hostCycle_cases h
  · exact .inl ⟨hquiet.overrun_eq, hreset⟩
  · rcases u.hostWrite_cases a.offset v with ⟨hbusy, hw⟩ | ⟨-, hw⟩ <;> rw [hw]
    · exact .inr (.inl ⟨rfl, hquiet.busy_eq.symm.trans hbusy, a, v, rest, hq, hop⟩)
    · obtain ⟨-, -, -, -, -, hover⟩ := writeReg_frame u v (regAt a.offset)
      exact .inl ⟨hover.trans hquiet.overrun_eq, hreset⟩
  · exact absurd hq (hreset rest)

/-- OVERRUN after a step: CLEAR, a dropped write and the reset input alone change it. -/
theorem step_overrun {s t : State} (h : step s = .next t) :
    (t.overrun = false ∧
      ((completesNow s = true ∧ pendingCommand s = some .clear) ∨
        (completesNow s = false ∧ ∃ rest, s.hostQueue = .reset :: rest))) ∨
    (t.overrun = true ∧ completesNow s = false ∧ s.busy = true ∧
      ∃ a v rest, s.hostQueue = .access a :: rest ∧ a.op = .write v) ∨
    (t.overrun = s.overrun ∧ ¬ (completesNow s = true ∧ pendingCommand s = some .clear) ∧
      ¬ (completesNow s = false ∧ ∃ rest, s.hostQueue = .reset :: rest)) := by
  rcases step_eq_next h with ⟨hc, i, hi, hexec⟩ | ⟨hc, hi, rfl⟩ | ⟨hc, hcycle⟩
  case inl =>
    have hover := exec_overrun hexec
    by_cases hclear : i = .clear
    · rw [if_pos hclear] at hover
      exact .inl ⟨hover, .inl ⟨hc, hclear ▸ hi⟩⟩
    · rw [if_neg hclear] at hover
      exact .inr (.inr ⟨hover, by simp [hi, hclear], by simp [hc]⟩)
  case inr.inl => exact .inr (.inr ⟨s.raiseError_overrun _, by simp [hi], by simp [hc]⟩)
  case inr.inr =>
    rcases hostCycle_overrun hcycle with ⟨hover, hreset⟩ | ⟨hover, hbusy, hwrite⟩ | ⟨hover, hreset⟩
    · exact .inr (.inr ⟨hover, by simp [hc], by simp [hreset]⟩)
    · exact .inr (.inl ⟨hover, hc, hbusy, hwrite⟩)
    · exact .inl ⟨hover, .inr ⟨hc, hreset⟩⟩

/-- Settles O47: a dropped write is one step, and `step_overrun` says what else can change OVERRUN. -/
theorem overrunIsSticky : Obligations.OverrunIsSticky := by
  refine ⟨fun s a v rest hbusy hc hq hop hword hwin => step_of_write_while_busy hbusy hc hq hop hword hwin,
    fun s t hstep hs ht => ?set, fun s t hstep hclears => ?clears, fun s t hstep hs ht => ?cleared⟩
  case set =>
    rcases step_overrun hstep with ⟨hover, -⟩ | ⟨-, hwrite⟩ | ⟨hover, -⟩
    · exact absurd (hover.symm.trans ht) (by decide)
    · exact hwrite
    · exact absurd (hs.symm.trans (hover.symm.trans ht)) (by decide)
  case clears =>
    rcases step_overrun hstep with ⟨hover, -⟩ | ⟨-, hc, -, a, v, rest, hq, -⟩ | ⟨-, hclear, hreset⟩
    · exact hover
    · simp [hc, hq] at hclears
    · exact absurd hclears (not_or.mpr ⟨hclear, hreset⟩)
  case cleared =>
    rcases step_overrun hstep with ⟨-, hclears⟩ | ⟨hover, -⟩ | ⟨hover, -⟩
    · exact hclears
    · exact absurd (hover.symm.trans ht) (by decide)
    · exact absurd (hs.symm.trans (hover.symm.trans ht)) (by decide)

/-! ### Control does not depend on data (41_sponge.md R195, 60_exceptions.md R266) -/

/-- The priority table reads the control state alone, but for VERIFY's comparison. -/
theorem commandError_congr {s t : State} {i : Instr} (hskip : s.skipEmptyData = t.skipEmptyData)
    (hdir : s.dir = t.dir) (hphase : s.phase = t.phase) (hkey : s.keyMask = t.keyMask)
    (hnonce : s.nonceMask = t.nonceMask) (hverify : i = .verify → s.perm = t.perm ∧ s.tagin = t.tagin) :
    commandError s i = commandError t i := by
  unfold commandError
  rw [hskip, hdir, hphase, hkey, hnonce]
  cases i with
  | verify => rw [(hverify rfl).1, (hverify rfl).2]
  | _ => rfl

/-- Agreement on control, field by field. -/
theorem agreeOnControl_iff {s t : State} :
    agreeOnControl s t ↔
      s.keyMask = t.keyMask ∧ s.nonceMask = t.nonceMask ∧ s.busy = t.busy ∧ s.authOk = t.authOk ∧ s.dir = t.dir ∧
      s.overrun = t.overrun ∧ s.phase = t.phase ∧ s.err = t.err ∧ s.latLeft = t.latLeft ∧
      s.skipEmptyData = t.skipEmptyData ∧ s.freeCount = t.freeCount ∧ s.hostQueue = t.hostQueue ∧
      s.reads = t.reads := by
  cases s
  cases t
  simp [agreeOnControl]

theorem agreeOnControl.raiseError {s t : State} (h : agreeOnControl s t) (e : ErrCode) :
    agreeOnControl (s.raiseError e) (t.raiseError e) := by
  have hphase : s.phase = t.phase := (congrArg State.phase h :)
  rw [State.raiseError, State.raiseError, State.endSession, State.endSession, hphase]
  split <;> rw [h] <;> rfl

theorem agreeOnControl.commandEffect {s t : State} (h : agreeOnControl s t) (i : Instr) :
    agreeOnControl (commandEffect i s) (commandEffect i t) := by
  rw [agreeOnControl_iff] at h ⊢
  obtain ⟨hkey, hnonce, -, -, hdir, hoverrun, hphase, -, -, hskip, hfree, hqueue, hreads⟩ := h
  cases i <;>
    simp [Machine.commandEffect, hkey, hnonce, hdir, hoverrun, hphase, hskip, hfree, hqueue, hreads]

/-- Every command but VERIFY answers states that agree on control from states that do. -/
theorem agreeOnControl.exec {s t s' t' : State} {i : Instr} (h : agreeOnControl s t) (hi : i ≠ .verify)
    (hs : exec i s = .next s') (ht : exec i t = .next t') : agreeOnControl s' t' := by
  have herr : commandError s i = commandError t i :=
    commandError_congr (congrArg State.skipEmptyData h :) (congrArg State.dir h :) (congrArg State.phase h :)
      (congrArg State.keyMask h :) (congrArg State.nonceMask h :) fun hv => absurd hv hi
  rw [exec_eq, Host.Outcome.next.injEq] at hs ht
  subst hs ht
  rw [← herr, State.outcome, State.outcome]
  split
  · exact h.commandEffect i
  · exact h.raiseError _

/-- A VERIFY that is accepted zeroizes, and its comparison decides the report alone. -/
theorem execVerify_of_done {s t : State} (hdone : s.phase = .done ∧ s.dir = .decrypt) (h : execVerify s = .next t) :
    ∃ e a, t = ({ s.zeroize with err := e, authOk := a } : State).retire := by
  rcases execVerify_eq_next.mp h with ⟨hno, -⟩ | ⟨-, -, -, rfl⟩ | ⟨-, -, -, rfl⟩
  · exact absurd hdone hno
  · exact ⟨.ok, true, rfl⟩
  · exact ⟨.auth, false, by rw [s.raiseError_auth_of_zeroized, State.raiseError, State.endSession_auth]⟩

/-- A VERIFY that is not accepted raises SEQUENCE. -/
theorem execVerify_of_not_done {s : State} (h : ¬ (s.phase = .done ∧ s.dir = .decrypt)) :
    execVerify s = .next (s.raiseError .sequence) :=
  execVerify_eq_next.mpr (.inl ⟨h, rfl⟩)

/-- Settles O49: the checks of a command other than VERIFY read control alone, and VERIFY is refused by control alone
or zeroizes. -/
theorem controlIsIndependentOfData : Obligations.ControlIsIndependentOfData := by
  refine fun i s t s' t' h hs ht => ⟨fun hi => h.exec hi hs ht, ?_⟩
  rintro rfl
  have hphase : s.phase = t.phase := (congrArg State.phase h :)
  have hdir : s.dir = t.dir := (congrArg State.dir h :)
  by_cases hdone : t.phase = .done ∧ t.dir = .decrypt
  · obtain ⟨e, a, rfl⟩ := execVerify_of_done (s := s) (by rwa [hphase, hdir]) hs
    obtain ⟨e', a', rfl⟩ := execVerify_of_done hdone ht
    rw [h]
    rfl
  · obtain rfl : s.raiseError .sequence = s' :=
      Host.Outcome.next.inj ((execVerify_of_not_done (by rwa [hphase, hdir])).symm.trans hs)
    obtain rfl : t.raiseError .sequence = t' :=
      Host.Outcome.next.inj ((execVerify_of_not_done hdone).symm.trans ht)
    have hagree := h.raiseError .sequence
    rw [agreeOnControl_iff] at hagree ⊢
    simpa using hagree

end Sys2Proof.Machine
end

section
/-!
Runs (70_reset_and_hazards.md R284, R292, R295): what a command answers depends on no field that the host's traffic
changes while it runs, so a started command ends with its result, and `do C` reads its STATUS last.
-/

namespace Sys2Proof.Machine

/-! ### What a command reads -/

/-- `s` with the fields blanked that no command reads but to count on: those of the pending command, of the host, and
OVERRUN. -/
def State.payload (s : State) : State :=
  { s with
    pending := 0, busy := false, overrun := false, latLeft := 0, freeCount := 0, hostQueue := [], reads := [] }

/-- Two states with the same payload differ in the blanked fields alone. -/
theorem State.eq_of_payload {s t : State} (h : s.payload = t.payload) :
    s = { t with
      pending := s.pending, busy := s.busy, overrun := s.overrun, latLeft := s.latLeft, freeCount := s.freeCount,
      hostQueue := s.hostQueue, reads := s.reads } :=
  congrArg (fun u : State =>
    { u with
      pending := s.pending, busy := s.busy, overrun := s.overrun, latLeft := s.latLeft, freeCount := s.freeCount,
      hostQueue := s.hostQueue, reads := s.reads }) h

theorem commandEffect_payload (i : Instr) (s : State) :
    (commandEffect i s).payload = (commandEffect i s.payload).payload := by
  cases i <;> rfl

theorem State.raiseError_payload (s : State) (e : ErrCode) :
    (s.raiseError e).payload = (s.payload.raiseError e).payload := by
  have hphase : s.payload.phase = s.phase := rfl
  rw [State.raiseError, State.raiseError, State.endSession, State.endSession, hphase]
  split <;> rfl

/-- The payload of a command's answer is made of the payload alone. -/
theorem State.outcome_payload (i : Instr) (s : State) :
    (s.outcome (commandEffect i s) (commandError s i)).payload =
      (s.payload.outcome (commandEffect i s.payload) (commandError s.payload i)).payload := by
  have herr : commandError s.payload i = commandError s i := rfl
  rw [State.outcome, State.outcome, herr]
  split
  · exact commandEffect_payload i s
  · exact s.raiseError_payload _

theorem exec_payload {i : Instr} {s s' t t' : State} (h : s.payload = s'.payload) (ht : exec i s = .next t)
    (ht' : exec i s' = .next t') : t.payload = t'.payload := by
  rw [exec_eq, Host.Outcome.next.injEq] at ht ht'
  rw [← ht, ← ht', State.outcome_payload, h, ← State.outcome_payload]

theorem State.raiseError_pending (s : State) (e : ErrCode) :
    (s.raiseError e).pending = Config.freeWord s.freeCount := by
  rcases s.endSession_cases e with h | ⟨-, -, h⟩ <;> rw [State.raiseError, h] <;> rfl

/-- What every completion leaves of the pending command and of the host (42_control.md R230). -/
theorem exec_bookkeeping {i : Instr} {s t : State} (h : exec i s = .next t) :
    t.busy = false ∧ t.latLeft = 0 ∧ t.pending = Config.freeWord s.freeCount ∧ t.freeCount = s.freeCount + 1 ∧
    t.hostQueue = s.hostQueue ∧ t.reads = s.reads := by
  rcases exec_eq_next.mp h with ⟨-, rfl⟩ | ⟨-, rfl⟩
  · cases i <;> exact ⟨rfl, rfl, rfl, rfl, rfl, rfl⟩
  · exact ⟨s.raiseError_busy _, s.raiseError_latLeft _, s.raiseError_pending _, s.raiseError_freeCount _,
      s.raiseError_hostQueue _, s.raiseError_reads _⟩

/-- A command answers the same from states that differ in the pending command and the host alone, but for the host's
two fields, which it leaves. -/
theorem exec_of_same_payload {i : Instr} {s s' t : State} (ht : exec i s = .next t) (h : s'.payload = s.payload)
    (hover : s'.overrun = s.overrun) (hfree : s'.freeCount = s.freeCount) :
    exec i s' = .next { t with hostQueue := s'.hostQueue, reads := s'.reads } := by
  have ht' := exec_eq i s'
  obtain ⟨hbusy, hlat, hpending, hcount, -, -⟩ := exec_bookkeeping ht
  obtain ⟨hbusy', hlat', hpending', hcount', hqueue', hreads'⟩ := exec_bookkeeping ht'
  have heq := State.eq_of_payload (exec_payload h ht' ht)
  rw [exec_overrun ht', hbusy', hlat', hpending', hcount', hqueue', hreads', hover, hfree, ← exec_overrun ht, ← hbusy,
    ← hlat, ← hpending, ← hcount] at heq
  rw [ht', heq]

/-! ### Steps while BUSY = 1 -/

theorem run_succ_of_step (M : Host.Core) {n : Nat} {s t : M.State} (h : M.step s = .next t) :
    M.run (n + 1) s = M.run n t := by
  rw [Host.Core.run, h]

/-- `n` steps of the machine, with the types of its own step. -/
def runSteps (n : Nat) (s : State) : Result := Host.Core.run Sys2Proof.core n s

@[simp] theorem runSteps_zero (s : State) : runSteps 0 s = .next s := rfl

theorem runSteps_succ {n : Nat} {s t : State} (h : step s = .next t) : runSteps (n + 1) s = runSteps n t :=
  run_succ_of_step Sys2Proof.core h

/-- The host makes only accesses that have a meaning, and does not reset. -/
def HarmlessTraffic (s : State) : Prop := ∀ e ∈ s.hostQueue, e.wellFormed = true ∧ e ≠ .reset

/-- With latency left, a step passes a cycle of it; harmless traffic changes nothing that the command reads. -/
theorem step_while_busy {s : State} (hbusy : s.busy = true) (hlat : s.latLeft ≠ 0) (hhost : HarmlessTraffic s) :
    ∃ u, step s = .next u ∧ u.payload = s.payload ∧ u.busy = true ∧ u.latLeft = s.latLeft - 1 ∧
      u.pending = s.pending ∧ HarmlessTraffic u := by
  have hc : completesNow s = false := by simp [completesNow, hlat]
  rw [step_of_cycle hc]
  cases hq : s.hostQueue with
  | nil => exact ⟨s.tick, by rw [hostCycle, hq], rfl, hbusy, rfl, rfl, hhost⟩
  | cons e rest =>
    obtain ⟨hwf, hreset⟩ := hhost e (by simp [hq])
    have hrest : HarmlessTraffic { s.tick with hostQueue := rest } := fun f hf => hhost f (by simp [hq, hf])
    rw [hostCycle_cons hq]
    cases e with
    | idle => exact ⟨_, rfl, rfl, hbusy, rfl, rfl, hrest⟩
    | reset => exact absurd rfl hreset
    | poll =>
      refine ⟨_, rfl, ?_⟩
      rw [if_pos (show ({ s.tick with hostQueue := rest } : State).busy = true from hbusy)]
      exact ⟨rfl, hbusy, rfl, rfl, fun f hf => hhost f (by rw [hq]; exact hf)⟩
    | access a =>
      obtain ⟨hword, hwin⟩ : a.isWord = true ∧ a.offset < windowBytes := by simpa [HostEvent.wellFormed] using hwf
      cases hop : a.op with
      | read => exact ⟨_, hostAccess_eq_next.mpr ⟨hwin, hword, .inl ⟨hop, rfl⟩⟩, rfl, hbusy, rfl, rfl, hrest⟩
      | write v =>
        refine ⟨_, hostAccess_eq_next.mpr ⟨hwin, hword, .inr ⟨v, hop, rfl⟩⟩, ?_⟩
        rw [State.hostWrite_of_busy (s := { s.tick with hostQueue := rest }) hbusy]
        exact ⟨rfl, hbusy, rfl, rfl, hrest⟩

/-- A started command is done after its latency and one step, with the payload that `exec` gives at the start. -/
theorem run_started {n : Nat} {s : State} {i : Instr} (hlat : s.latLeft = n) (hbusy : s.busy = true)
    (hd : decodeWord s.pending = .ok i) (hhost : HarmlessTraffic s) :
    ∃ u v, runSteps (n + 1) s = .next u ∧ exec i s = .next v ∧ u.payload = v.payload ∧
      u.busy = false ∧ u.latLeft = 0 := by
  induction n generalizing s with
  | zero =>
    have hexec := exec_eq i s
    obtain ⟨hidle, hzero, -⟩ := exec_bookkeeping hexec
    refine ⟨_, _, ?_, hexec, rfl, hidle, hzero⟩
    exact (runSteps_succ ((stepRunsPendingCommand s i hbusy hlat hd).trans hexec)).trans (runSteps_zero _)
  | succ n ih =>
    obtain ⟨s', hstep, hpayload, hbusy', hlat', hpending, hhost'⟩ := step_while_busy hbusy (by omega) hhost
    obtain ⟨u, v, hrun, hexec, huv, hidle, hzero⟩ := ih (by omega) hbusy' (by rwa [hpending]) hhost'
    exact ⟨u, _, (runSteps_succ hstep).trans hrun, exec_eq i s,
      huv.trans (exec_payload hpayload hexec (exec_eq i s)), hidle, hzero⟩

/-- Settles O50: the payloads agree (`run_started`), and of the other fields BUSY and the latency do. -/
theorem startedCommandCompletes : Obligations.StartedCommandCompletes := by
  intro s i hbusy hd hhost
  obtain ⟨u, v, hrun, hexec, huv, hidle, hzero⟩ := run_started rfl hbusy hd hhost
  obtain ⟨hidle', hzero', -⟩ := exec_bookkeeping hexec
  have heq := State.eq_of_payload huv
  rw [hidle, hzero, ← hidle', ← hzero'] at heq
  exact ⟨u, v, hrun, hexec, heq⟩

/-! ### `do C` (30_encoding.md R104) -/

/-- While BUSY = 1 with latency left, a poll reads STATUS and stays queued. -/
theorem step_of_poll_while_busy {s : State} {rest : List HostEvent} (hbusy : s.busy = true) (hlat : s.latLeft ≠ 0)
    (hq : s.hostQueue = .poll :: rest) :
    step s = .next { s with latLeft := s.latLeft - 1, reads := ⟨statusOffset, statusWord s⟩ :: s.reads } := by
  have hbusy' : ({ s.tick with hostQueue := rest } : State).busy = true := hbusy
  rw [step_of_cycle (by simp [completesNow, hlat]), hostCycle_cons hq, hostEvent, if_pos hbusy', State.hostRead_status]
  rw [State.tick, ← hq]
  rfl

/-- With BUSY = 0 a poll reads STATUS and ends. -/
theorem step_of_poll_while_idle {s : State} {rest : List HostEvent} (hbusy : s.busy = false) (hlat : s.latLeft = 0)
    (hq : s.hostQueue = .poll :: rest) :
    step s = .next { s with hostQueue := rest, reads := ⟨statusOffset, statusWord s⟩ :: s.reads } := by
  rw [step_of_cycle (completesNow_of_not_busy hbusy), hostCycle_cons hq, State.tick_of_latLeft_zero hlat, hostEvent,
    if_neg (show ¬ s.busy = true by simp [hbusy]), State.hostRead_status]
  rfl

/-- A read of STATUS that saw BUSY = 1. -/
def SawBusy (r : PortRead) : Prop := r.offset = 0x004 ∧ r.value.extractLsb' 0 1 = 1

/-- A poll reads BUSY = 1 until the latency is over, and changes nothing else. -/
theorem run_polls {n : Nat} {s : State} {rest : List HostEvent} (hlat : s.latLeft = n) (hbusy : s.busy = true)
    (hq : s.hostQueue = .poll :: rest) :
    ∃ more, (∀ r ∈ more, SawBusy r) ∧
      ∀ m, runSteps (n + m) s = runSteps m { s with latLeft := 0, reads := more ++ s.reads } := by
  induction n generalizing s with
  | zero => exact ⟨[], by simp, fun m => by rw [Nat.zero_add, List.nil_append, ← hlat]⟩
  | succ n ih =>
    obtain ⟨more, hmore, hrun⟩ :=
      ih (s := { s with latLeft := s.latLeft - 1, reads := ⟨statusOffset, statusWord s⟩ :: s.reads })
        (by rw [hlat]; rfl) hbusy hq
    refine ⟨more ++ [⟨statusOffset, statusWord s⟩], fun r hr => ?reads, fun m => ?run⟩
    case run =>
      rw [Nat.add_right_comm, runSteps_succ (step_of_poll_while_busy hbusy (by omega) hq), hrun, List.append_assoc]
      rfl
    case reads =>
      rcases List.mem_append.mp hr with hr | hr
      · exact hmore r hr
      · obtain ⟨hbit, -⟩ := statusBits s
        rw [List.mem_singleton.mp hr]
        exact ⟨rfl, by rw [hbit, hbusy]; rfl⟩

/-- Settles O51: the write starts the command, the poll waits for its latency (`run_polls`), the command completes as
from the first state (`exec_of_same_payload`), and the poll reads STATUS of that and ends. -/
theorem doCommandEnds : Obligations.DoCommandEnds := by
  intro s i rest hwf hbusy hlat hq
  have ht := exec_eq i s
  generalize s.outcome (commandEffect i s) (commandError s i) = t at ht
  obtain ⟨hidle, hzero, -⟩ := exec_bookkeeping ht
  have hwrite : step s = .next { s.start (encode i) with hostQueue := .poll :: rest } :=
    step_of_write (off := cmdOffset) hbusy hlat rfl (by decide) hq
  obtain ⟨more, hmore, hpolls⟩ :=
    run_polls (s := { s.start (encode i) with hostQueue := .poll :: rest }) rfl rfl rfl
  let s' : State :=
    { s.start (encode i) with latLeft := 0, hostQueue := .poll :: rest, reads := more ++ s.reads }
  have hcomplete : step s' = .next { t with hostQueue := .poll :: rest, reads := more ++ s.reads } :=
    (stepRunsPendingCommand s' i rfl rfl (decodeWord_encode hwf)).trans (exec_of_same_payload ht rfl rfl rfl)
  have hlast := step_of_poll_while_idle
    (s := { t with hostQueue := .poll :: rest, reads := more ++ s.reads }) hidle hzero rfl
  have hrun : runSteps (latency (encode i) + 2 + 1) s =
      .next { t with hostQueue := rest, reads := ⟨statusOffset, statusWord t⟩ :: (more ++ s.reads) } := by
    rw [runSteps_succ hwrite]
    exact (hpolls 2).trans ((runSteps_succ hcomplete).trans (runSteps_succ hlast))
  exact ⟨_, _, t, more, hrun, ht, rfl, hmore⟩

end Sys2Proof.Machine
end

section
/-!
Which sequences of commands a session accepts (41_sponge.md R181, R190): a phase that takes blocks and a final block
accepts exactly blocks and then one final block, once for the AAD and once for the data of each direction.
-/

namespace Sys2Proof.Machine

/-! ### A phase of blocks and a final block -/

/-- A sequence is accepted when its first command reports no error, and the rest is from its effect. -/
theorem acceptAll_cons {c : Instr} {cs : List Instr} {s t : State} :
    acceptAll (c :: cs) s = some t ↔ commandError s c = .ok ∧ acceptAll cs (commandEffect c s) = some t := by
  rw [acceptAll_cons_eq_some]
  constructor
  · rintro ⟨u, hexec, herr, hrest⟩
    rcases exec_eq_next.mp hexec with ⟨hok, rfl⟩ | ⟨hne, rfl⟩
    · exact ⟨hok, hrest⟩
    · exact absurd ((s.raiseError_err _).symm.trans herr) hne
  · rintro ⟨hok, hrest⟩
    exact ⟨_, exec_of_ok hok, commandEffect_err c s, hrest⟩

/-- What the states `Open` do with the commands `Allowed`: they take `block` and stay open, take `final` exactly with a
legal length and close, and take nothing else; closed states take nothing. -/
structure ChunkPhase (Allowed : Instr → Prop) (block : Instr) (final : BitVec 6 → Instr) (Open Closed : State → Prop)
    (Legal : State → BitVec 6 → Prop) : Prop where
  block_ne_final : ∀ len, block ≠ final len
  not_closed : ∀ s, Open s → ¬ Closed s
  block_ok : ∀ s, Open s → commandError s block = .ok
  block_open : ∀ s, Open s → Open (commandEffect block s)
  final_ok : ∀ s len, Open s → (commandError s (final len) = .ok ↔ Legal s len)
  final_closed : ∀ s len, Open s → Closed (commandEffect (final len) s)
  other : ∀ s c, Open s → Allowed c → commandError s c = .ok → c = block ∨ ∃ len, c = final len
  closed : ∀ s c, Closed s → Allowed c → commandError s c ≠ .ok

namespace ChunkPhase

variable {Allowed : Instr → Prop} {block : Instr} {final : BitVec 6 → Instr} {Open Closed : State → Prop}
  {Legal : State → BitVec 6 → Prop}

/-- The sequences that close the phase without an error are `block^k final`, with a length that is legal after the
blocks. -/
theorem accepts_iff (h : ChunkPhase Allowed block final Open Closed Legal) {cs : List Instr} {s : State}
    (hs : Open s) (hcs : ∀ c ∈ cs, Allowed c) :
    (∃ t, acceptAll cs s = some t ∧ Closed t) ↔
      ∃ k len, Legal ((commandEffect block)^[k] s) len ∧ cs = List.replicate k block ++ [final len] := by
  induction cs generalizing s with
  | nil =>
    have hnot := h.not_closed s hs
    simp [hnot]
  | cons c cs ih =>
    have hc : Allowed c := hcs c (by simp)
    have htail : ∀ c ∈ cs, Allowed c := fun c hmem => hcs c (by simp [hmem])
    simp only [acceptAll_cons]
    constructor
    case mp =>
      rintro ⟨t, ⟨hok, hrest⟩, ht⟩
      rcases h.other s c hs hc hok with rfl | ⟨len, rfl⟩
      · obtain ⟨k, len, hlegal, rfl⟩ := (ih (h.block_open s hs) htail).mp ⟨t, hrest, ht⟩
        exact ⟨k + 1, len, hlegal, rfl⟩
      · cases cs with
        | nil => exact ⟨0, len, (h.final_ok s len hs).mp hok, rfl⟩
        | cons c' cs =>
          obtain ⟨hok', -⟩ := acceptAll_cons.mp hrest
          exact absurd hok' (h.closed _ c' (h.final_closed s len hs) (htail c' (by simp)))
    case mpr =>
      rintro ⟨k, len, hlegal, heq⟩
      cases k with
      | zero =>
        obtain ⟨rfl, rfl⟩ : c = final len ∧ cs = [] := by simpa using heq
        exact ⟨_, ⟨(h.final_ok s len hs).mpr hlegal, rfl⟩, h.final_closed s len hs⟩
      | succ k =>
        obtain ⟨rfl, rfl⟩ : c = block ∧ cs = List.replicate k block ++ [final len] := by
          simpa [List.replicate_succ] using heq
        obtain ⟨t, hrest, ht⟩ := (ih (h.block_open s hs) htail).mpr ⟨k, len, hlegal, rfl⟩
        exact ⟨t, ⟨h.block_ok s hs, hrest⟩, ht⟩

end ChunkPhase

/-! ### The AAD (41_sponge.md R181) -/

/-- The AAD phase takes AAD.BLOCK and AAD.FINAL. -/
theorem aadChunkPhase :
    ChunkPhase (fun c => c = .aadBlock ∨ ∃ len, c = .aadFinal len) .aadBlock .aadFinal
      (fun s => s.phase = .aadStart ∨ s.phase = .aadMid) (fun s => s.phase = .dataStart)
      (fun _ len => 1 ≤ len.toNat ∧ len.toNat ≤ 32) where
  block_ne_final _ := by simp
  not_closed s hs := by rcases hs with hs | hs <;> simp [hs]
  block_ok s hs := commandError_aadBlock_eq_ok.mpr hs
  block_open s _ := .inr rfl
  final_ok s len hs := by rw [commandError_aadFinal_eq_ok, and_iff_right hs]
  final_closed s len _ := rfl
  other s c _ hc _ := hc
  closed s c hs hc := by
    rcases hc with rfl | ⟨len, rfl⟩
    · simp [commandError_aadBlock_eq_ok, hs]
    · simp [commandError_aadFinal_eq_ok, hs]

/-- Settles O52: the legal lengths are the same after every number of blocks. -/
theorem aadSequencesAreChunkings : Obligations.AadSequencesAreChunkings := by
  intro s cs hs hcs
  rw [aadChunkPhase.accepts_iff (.inl hs) hcs]
  simp only [and_assoc]

/-! ### The data (41_sponge.md R181, R190) -/

/-- The command for a full block of a session's direction (42_control.md R239). -/
def blockCommand : Dir → Instr
  | .encrypt => .encBlock
  | .decrypt => .decBlock

/-- The command for the last block of a session's direction (42_control.md R239). -/
def finalCommand : Dir → BitVec 6 → Instr
  | .encrypt => .encFinal
  | .decrypt => .decFinal

/-- A session of direction `d` takes data commands. -/
def TakesData (d : Dir) (s : State) : Prop :=
  s.dir = d ∧ (s.phase = .aadStart ∨ s.phase = .dataStart ∨ s.phase = .dataMid)

theorem commandError_blockCommand_eq_ok {d : Dir} {s : State} :
    commandError s (blockCommand d) = .ok ↔ TakesData d s := by
  cases d with
  | encrypt => exact commandError_encBlock_eq_ok
  | decrypt => exact commandError_decBlock_eq_ok

theorem commandError_finalCommand_eq_ok {d : Dir} {s : State} {len : BitVec 6} :
    commandError s (finalCommand d len) = .ok ↔
      TakesData d s ∧ len.toNat ≤ 32 ∧ (1 ≤ len.toNat ∨ (s.phase ≠ .dataMid ∧ s.skipEmptyData = false)) := by
  cases d with
  | encrypt => exact commandError_encFinal_eq_ok
  | decrypt => exact commandError_decFinal_eq_ok

/-- A block leaves DATA_MID, and the direction and the build parameter as they are. -/
theorem commandEffect_blockCommand (d : Dir) (s : State) :
    (commandEffect (blockCommand d) s).phase = .dataMid ∧ (commandEffect (blockCommand d) s).dir = s.dir ∧
    (commandEffect (blockCommand d) s).skipEmptyData = s.skipEmptyData := by
  cases d <;> exact ⟨rfl, rfl, rfl⟩

theorem commandEffect_finalCommand_phase (d : Dir) (len : BitVec 6) (s : State) :
    (commandEffect (finalCommand d len) s).phase = .finalReady := by
  cases d <;> rfl

/-- The data phase takes the two data commands of the session's direction. -/
theorem dataChunkPhase (d : Dir) :
    ChunkPhase (fun c => c = .encBlock ∨ c = .decBlock ∨ ∃ len, c = .encFinal len ∨ c = .decFinal len)
      (blockCommand d) (finalCommand d) (TakesData d) (fun s => s.phase = .finalReady)
      (fun s len => len.toNat ≤ 32 ∧ (1 ≤ len.toNat ∨ (s.phase ≠ .dataMid ∧ s.skipEmptyData = false))) where
  block_ne_final len := by cases d <;> simp [blockCommand, finalCommand]
  not_closed s hs hfinal := by simp [TakesData, hfinal] at hs
  block_ok s hs := commandError_blockCommand_eq_ok.mpr hs
  block_open s hs := by
    obtain ⟨hphase, hdir, -⟩ := commandEffect_blockCommand d s
    exact ⟨hdir.trans hs.1, .inr (.inr hphase)⟩
  final_ok s len hs := by rw [commandError_finalCommand_eq_ok, and_iff_right hs]
  final_closed s len _ := commandEffect_finalCommand_phase d len s
  other s c hs hc hok := by
    obtain ⟨rfl, -⟩ := hs
    rcases hc with rfl | rfl | ⟨len, rfl | rfl⟩
    · obtain ⟨hdir, -⟩ := commandError_encBlock_eq_ok.mp hok
      exact .inl (by rw [hdir, blockCommand])
    · obtain ⟨hdir, -⟩ := commandError_decBlock_eq_ok.mp hok
      exact .inl (by rw [hdir, blockCommand])
    · obtain ⟨⟨hdir, -⟩, -⟩ := commandError_encFinal_eq_ok.mp hok
      exact .inr ⟨len, by rw [hdir, finalCommand]⟩
    · obtain ⟨⟨hdir, -⟩, -⟩ := commandError_decFinal_eq_ok.mp hok
      exact .inr ⟨len, by rw [hdir, finalCommand]⟩
  closed s c hs hc := by
    rcases hc with rfl | rfl | ⟨len, rfl | rfl⟩
    · simp [commandError_encBlock_eq_ok, hs]
    · simp [commandError_decBlock_eq_ok, hs]
    · simp [commandError_encFinal_eq_ok, hs]
    · simp [commandError_decFinal_eq_ok, hs]

/-- After any block the phase is DATA_MID, so that the last block is not empty; before, SKIP_EMPTY_DATA decides. -/
theorem dataLen_after_blocks (d : Dir) {s : State} (hs : s.phase ≠ .dataMid) (k : Nat) (P : Prop) :
    (P ∨ (((commandEffect (blockCommand d))^[k] s).phase ≠ .dataMid ∧
        ((commandEffect (blockCommand d))^[k] s).skipEmptyData = false)) ↔
      (P ∨ (k = 0 ∧ s.skipEmptyData = false)) := by
  cases k with
  | zero => simp [hs]
  | succ k =>
    rw [Function.iterate_succ_apply', (commandEffect_blockCommand d _).1]
    simp

/-- Settles O53: the data phase of the session's direction accepts blocks and a final block, whose least length depends
on whether a block came before (`dataLen_after_blocks`). -/
theorem dataSequencesAreChunkings : Obligations.DataSequencesAreChunkings := by
  intro s cs hs hcs
  have hopen : TakesData s.dir s := ⟨rfl, by tauto⟩
  have hphase : s.phase ≠ .dataMid := by rcases hs with hs | hs <;> simp [hs]
  rw [(dataChunkPhase s.dir).accepts_iff hopen hcs]
  simp only [dataLen_after_blocks s.dir hphase, and_assoc]
  cases s.dir <;> rfl

/-! ### The blocks of a byte string (41_sponge.md R181) -/

/-- A byte string is cut into `front` and `last`: blocks of 32 bytes, and the rest, which is empty only where the string
is. -/
structure IsChunking (front : List (List Byte)) (last d : List Byte) : Prop where
  concat : front.flatten ++ last = d
  front_full : ∀ b ∈ front, b.length = 32
  last_le : last.length ≤ 32
  last_nonempty : last = [] → d = []

/-- With fuel for all full blocks, the blocks are a chunking. -/
theorem chunksAux_isChunking {fuel : Nat} {d : List Byte} (h : d.length ≤ 32 * (fuel + 1)) :
    ∃ front last, chunksAux fuel d = front ++ [last] ∧ IsChunking front last d := by
  induction fuel generalizing d with
  | zero => exact ⟨[], d, rfl, rfl, by simp, by omega, id⟩
  | succ n ih =>
    rw [chunksAux]
    split
    next hlong =>
      obtain ⟨front, last, hchunks, hrest⟩ := ih (d := d.drop 32) (by rw [List.length_drop]; omega)
      refine ⟨d.take 32 :: front, last, by rw [hchunks, List.cons_append], ?_, ?_, hrest.last_le, fun hlast => ?_⟩
      · rw [List.flatten_cons, List.append_assoc, hrest.concat, List.take_append_drop]
      · intro b hb
        rcases List.mem_cons.mp hb with rfl | hb
        · rw [List.length_take]
          omega
        · exact hrest.front_full b hb
      · have hdrop := congrArg List.length (hrest.last_nonempty hlast)
        rw [List.length_drop, List.length_nil] at hdrop
        omega
    next hshort => exact ⟨[], d, rfl, rfl, by simp, by omega, id⟩

theorem chunks_isChunking (d : List Byte) : ∃ front last, chunks d = front ++ [last] ∧ IsChunking front last d :=
  chunksAux_isChunking (by omega)

/-- Settles O54. -/
theorem chunksOfString : Obligations.ChunksOfString := by
  intro d
  obtain ⟨front, last, hchunks, h⟩ := chunks_isChunking d
  exact ⟨front, last, hchunks, h.concat, h.front_full, h.last_le, h.last_nonempty⟩

end Sys2Proof.Machine
end

section
/-!
Whole calls as functions of byte strings (41_sponge.md R196 to R198): what packing and reading back a block keeps, that
the ciphertext is cut as the message was, and that decryption of it gives the message back.
-/

namespace Sys2Proof.Machine

/-! ### Packing a block and reading it back (00_scope.md R13, 30_encoding.md R104) -/

theorem byteAt_packBlock (b : List Byte) {k : Nat} (hk : k < 32) : byteAt (packBlock b) k = b.getD k 0 :=
  byteAt_ofBytes _ hk

@[simp] theorem takeBytes_length (v : Words8) (len : Nat) : (takeBytes v len).length = len := by
  simp [takeBytes]

theorem takeBytes_congr {u v : Words8} {len : Nat} (h : ∀ k, k < len → byteAt u k = byteAt v k) :
    takeBytes u len = takeBytes v len :=
  List.map_congr_left fun k hk => h k (List.mem_range.mp hk)

theorem takeBytes_packBlock {b : List Byte} (hb : b.length ≤ 32) : takeBytes (packBlock b) b.length = b := by
  refine List.ext_getElem (takeBytes_length _ _) fun k hk _ => ?_
  rw [takeBytes_length] at hk
  simp only [takeBytes, List.getElem_map, List.getElem_range]
  rw [byteAt_packBlock b (by omega), List.getD_eq_getElem _ _ hk]

/-- Packing fills a buffer up with zeros, so it gives back a buffer whose other bytes are zero. -/
theorem packBlock_takeBytes {v : Words8} {len : Nat} (h : ∀ k, len ≤ k → k < 32 → byteAt v k = 0) :
    packBlock (takeBytes v len) = v := by
  refine ext_byteAt fun k hk => ?_
  rw [byteAt_packBlock _ hk]
  rcases Nat.lt_or_ge k len with hlen | hlen
  · simp [List.getD, takeBytes, hlen]
  · rw [h k hlen hk, List.getD_eq_default _ _ (by simpa using hlen)]

theorem packBlock_takeBytes_full (v : Words8) : packBlock (takeBytes v 32) = v :=
  packBlock_takeBytes fun _ hle hlt => absurd hlt (by omega)

/-! ### One block in both directions (41_sponge.md R178) -/

/-- The host's bytes of a block's output are the whole output: zeros follow. -/
theorem packBlock_takeBytes_rhoOutput (v : Words8) (len : Nat) (p : SparkleState) :
    packBlock (takeBytes (rhoOutput v len p) len) = rhoOutput v len p :=
  packBlock_takeBytes fun k hle hk => by rw [byteAt_rhoOutput v len p hk, if_neg (by omega)]

/-- The output of a block's output is the block. -/
theorem takeBytes_rhoOutput_rhoOutput {b : List Byte} (hb : b.length ≤ 32) (p : SparkleState) :
    takeBytes (rhoOutput (rhoOutput (packBlock b) b.length p) b.length p) b.length = b := by
  refine Eq.trans (takeBytes_congr fun k hk => ?_) (takeBytes_packBlock hb)
  rw [byteAt_rhoOutput_rhoOutput _ _ p (by omega), if_pos hk]

/-- Decryption of a block's output leaves the state that encryption of the block leaves. -/
theorem rhoWhiDec_rhoOutput (v : Words8) {len : Nat} (p : SparkleState) (hlen : len ≤ 32) :
    rhoWhiDec (rhoOutput v len p) len p = rhoWhiEnc v len p := by
  obtain ⟨-, -, hundo, -⟩ := decryptionUndoesEncryptionOfBlock v len p hlen
  exact hundo

theorem decBlockState_rhoOutput (v : Words8) (p : SparkleState) :
    decBlockState (rhoOutput v 32 p) p = encBlockState v p := by
  rw [decBlockState, rhoWhiDec_rhoOutput v p (Nat.le_refl 32), encBlockState]

theorem decFinalState_rhoOutput (v : Words8) {len : Nat} (p : SparkleState) (hlen : len ≤ 32) :
    decFinalState (rhoOutput v len p) len p = encFinalState v len p := by
  rw [decFinalState, ← rhoOutput_addDomain v len (dataConstant len) p, rhoWhiDec_rhoOutput v _ hlen, encFinalState]

/-! ### Blocks of the same lengths are cut the same way (41_sponge.md R181) -/

theorem chunksAux_flatten (fuel : Nat) (d : List Byte) : (chunksAux fuel d).flatten = d := by
  induction fuel generalizing d with
  | zero => simp [chunksAux]
  | succ n ih =>
    rw [chunksAux]
    split
    · rw [List.flatten_cons, ih, List.take_append_drop]
    · simp

theorem flatten_length_of_map_length {cs ds : List (List Byte)} (h : cs.map List.length = ds.map List.length) :
    cs.flatten.length = ds.flatten.length := by
  rw [List.length_flatten, List.length_flatten, h]

/-- A single block is its own concatenation. -/
theorem singleton_flatten {n : Nat} {cs : List (List Byte)} (h : cs.map List.length = [n]) : [cs.flatten] = cs := by
  obtain ⟨c, rfl, -⟩ := List.map_eq_singleton_iff.mp h
  rw [List.flatten_singleton]

/-- Blocks with the lengths of a string's blocks are the blocks of their own concatenation. -/
theorem chunksAux_of_lengths {fuel : Nat} {d : List Byte} {cs : List (List Byte)}
    (h : cs.map List.length = (chunksAux fuel d).map List.length) : chunksAux fuel cs.flatten = cs := by
  induction fuel generalizing d cs with
  | zero => exact singleton_flatten h
  | succ n ih =>
    have hlength : cs.flatten.length = d.length := by
      rw [flatten_length_of_map_length h, chunksAux_flatten]
    rw [chunksAux] at h ⊢
    rw [hlength]
    by_cases hlong : 32 < d.length
    · rw [if_pos hlong] at h ⊢
      obtain ⟨c, cs', rfl, hc, hcs'⟩ := List.map_eq_cons_iff.mp h
      have hc32 : c.length = 32 := by rw [hc, List.length_take]; omega
      have hdrop : (c :: cs').flatten.drop 32 = cs'.flatten := by
        rw [List.flatten_cons, ← hc32, List.drop_left]
      have htake : (c :: cs').flatten.take 32 = c := by
        rw [List.flatten_cons, ← hc32, List.take_left]
      rw [htake, hdrop, ih hcs']
    · rw [if_neg hlong] at h ⊢
      exact singleton_flatten h

/-- An empty message has no block with SKIP_EMPTY_DATA, and otherwise the chunking. -/
theorem dataChunks_eq (skip : Bool) (m : List Byte) :
    dataChunks skip m = if skip = true ∧ m = [] then [] else chunks m := rfl

theorem dataChunks_flatten (skip : Bool) (m : List Byte) : (dataChunks skip m).flatten = m := by
  rw [dataChunks_eq]
  split
  next hempty => rw [hempty.2, List.flatten_nil]
  next => exact chunksAux_flatten _ m

/-- A message of blocks with the lengths of another one's blocks is cut into these blocks. -/
theorem dataChunks_of_lengths {skip : Bool} {m : List Byte} {cs : List (List Byte)}
    (h : cs.map List.length = (dataChunks skip m).map List.length) : dataChunks skip cs.flatten = cs := by
  have hlength : cs.flatten.length = m.length := by
    rw [flatten_length_of_map_length h, dataChunks_flatten]
  have hempty : cs.flatten = [] ↔ m = [] := by
    rw [← List.length_eq_zero_iff, ← List.length_eq_zero_iff, hlength]
  rw [dataChunks_eq] at h ⊢
  simp only [hempty]
  split
  next hskip =>
    rw [if_pos hskip] at h
    exact (List.map_eq_nil_iff.mp h).symm
  next hskip =>
    rw [if_neg hskip] at h
    rw [chunks, hlength]
    exact chunksAux_of_lengths h

/-- A message that has blocks has full blocks and a last one, which is empty only as the first block without
SKIP_EMPTY_DATA. -/
theorem dataChunks_cases (skip : Bool) (m : List Byte) :
    (skip = true ∧ dataChunks skip m = []) ∨
    ∃ front last, dataChunks skip m = front ++ [last] ∧ (∀ b ∈ front, b.length = 32) ∧ last.length ≤ 32 ∧
      (1 ≤ last.length ∨ (front = [] ∧ skip = false)) := by
  rw [dataChunks_eq]
  split
  next hskip => exact .inl ⟨hskip.1, rfl⟩
  next hskip =>
    obtain ⟨front, last, hchunks, h⟩ := chunks_isChunking m
    refine .inr ⟨front, last, hchunks, h.front_full, h.last_le, ?_⟩
    rcases Nat.eq_zero_or_pos last.length with hzero | hpos
    · have hm : m = [] := h.last_nonempty (List.length_eq_zero_iff.mp hzero)
      have hskip' : skip = false := by simpa [hm] using hskip
      refine .inr ⟨?_, hskip'⟩
      cases front with
      | nil => rfl
      | cons b bs =>
        have hconcat := congrArg List.length h.concat
        rw [hm, List.flatten_cons, List.length_append, List.length_append, h.front_full b (by simp)] at hconcat
        simp at hconcat
    · exact .inl hpos

/-- An AAD that is not empty has full blocks and a last one, which is not empty. -/
theorem aadChunks_cases (a : List Byte) :
    aadChunks a = [] ∨
    ∃ front last, aadChunks a = front ++ [last] ∧ (∀ b ∈ front, b.length = 32) ∧ last.length ≤ 32 ∧
      1 ≤ last.length := by
  rw [aadChunks]
  split
  next => exact .inl rfl
  next hsome =>
    obtain ⟨front, last, hchunks, h⟩ := chunks_isChunking a
    exact .inr ⟨front, last, hchunks, h.front_full, h.last_le,
      List.length_pos_iff.mpr fun hlast => hsome (h.last_nonempty hlast)⟩

/-! ### The data phase (41_sponge.md R196, R197) -/

theorem encPhase_cons {b : List Byte} {bs : List (List Byte)} (hbs : bs ≠ []) (p : SparkleState) :
    encPhase (b :: bs) p =
      (takeBytes (rhoOutput (packBlock b) 32 p) 32 ++ (encPhase bs (encBlockState (packBlock b) p)).1,
        (encPhase bs (encBlockState (packBlock b) p)).2) := by
  cases bs with
  | nil => exact absurd rfl hbs
  | cons c cs => rfl

theorem decPhase_cons {c : List Byte} {cs : List (List Byte)} (hcs : cs ≠ []) (p : SparkleState) :
    decPhase (c :: cs) p =
      (takeBytes (rhoOutput (packBlock c) 32 p) 32 ++ (decPhase cs (decBlockState (packBlock c) p)).1,
        (decPhase cs (decBlockState (packBlock c) p)).2) := by
  cases cs with
  | nil => exact absurd rfl hcs
  | cons d ds => rfl

/-- The ciphertext has blocks of the message's lengths, whose decryption gives the message and the same state. -/
theorem decPhase_encPhase {front : List (List Byte)} {last : List Byte} (hfront : ∀ b ∈ front, b.length = 32)
    (hlast : last.length ≤ 32) (p : SparkleState) :
    ∃ cs : List (List Byte), cs.map List.length = (front ++ [last]).map List.length ∧
      (encPhase (front ++ [last]) p).1 = cs.flatten ∧
      decPhase cs p = ((front ++ [last]).flatten, (encPhase (front ++ [last]) p).2) := by
  induction front generalizing p with
  | nil =>
    refine ⟨[takeBytes (rhoOutput (packBlock last) last.length p) last.length], by simp, by simp [encPhase], ?_⟩
    simp only [List.nil_append, decPhase, encPhase, takeBytes_length, packBlock_takeBytes_rhoOutput,
      takeBytes_rhoOutput_rhoOutput hlast, decFinalState_rhoOutput _ p hlast, List.flatten_singleton]
  | cons b front ih =>
    have hb : b.length = 32 := hfront b (by simp)
    obtain ⟨cs, hlengths, henc, hdec⟩ := ih (fun c hc => hfront c (by simp [hc])) (encBlockState (packBlock b) p)
    have hcs : cs ≠ [] := by
      rintro rfl
      simp at hlengths
    have houtput : takeBytes (rhoOutput (rhoOutput (packBlock b) 32 p) 32 p) 32 = b := by
      have h := takeBytes_rhoOutput_rhoOutput (b := b) (by omega) p
      rwa [hb] at h
    refine ⟨takeBytes (rhoOutput (packBlock b) 32 p) 32 :: cs, by simp [hlengths, hb], ?_, ?_⟩
    · rw [List.cons_append, encPhase_cons (by simp), henc, List.flatten_cons]
    · rw [List.cons_append, encPhase_cons (by simp), decPhase_cons hcs, packBlock_takeBytes_rhoOutput,
        decBlockState_rhoOutput, hdec, houtput, List.flatten_cons]

/-- Decryption of the data phase, message and state, with the cut that the host makes of the ciphertext. -/
theorem decPhase_dataChunks (skip : Bool) (m : List Byte) (p : SparkleState) :
    decPhase (dataChunks skip (encPhase (dataChunks skip m) p).1) p = (m, (encPhase (dataChunks skip m) p).2) ∧
    (encPhase (dataChunks skip m) p).1.length = m.length := by
  have hflatten := dataChunks_flatten skip m
  rcases dataChunks_cases skip m with ⟨rfl, hnil⟩ | ⟨front, last, hchunks, hfront, hlast, -⟩
  · rw [hnil] at hflatten
    rw [hnil, ← hflatten]
    exact ⟨rfl, rfl⟩
  · obtain ⟨cs, hlengths, henc, hdec⟩ := decPhase_encPhase hfront hlast p
    rw [← hchunks] at hlengths henc hdec
    rw [henc, dataChunks_of_lengths hlengths, hdec, hflatten, flatten_length_of_map_length hlengths, hflatten]
    exact ⟨rfl, rfl⟩

/-- Settles O55: the data phase is undone (`decPhase_dataChunks`), so both calls finalize the same state and compute the
same tag. -/
theorem roundTrip : Obligations.RoundTrip := by
  intro skip k n a p
  obtain ⟨hdec, hlength⟩ := decPhase_dataChunks skip p (startPhase k n a)
  refine ⟨?_, hlength, takeBytes_length _ _⟩
  simp only [aeadDecrypt, aeadEncrypt, hdec, packBlock_takeBytes_full]
  exact if_pos ((tagDifference_eq_zero_iff _ _).mpr rfl)

end Sys2Proof.Machine
end

section
/-!
Whole calls through the port (30_encoding.md R104, 41_sponge.md R196, R197): what the loads, the reads and `do C` of an
idle core do, that a session follows the AAD phase and the data phase block by block, and so computes the calls.
-/

namespace Sys2Proof.Machine

/-! ### Loading a buffer (30_encoding.md R104) -/

/-- The first `n` words of `w`, and the rest of `v`: a buffer that is being loaded. -/
def overwrite (n : Nat) (w v : Words8) : Words8 := Words8.ofFn fun j => if j < n then w.get j else v.get j

theorem overwrite_zero (w v : Words8) : overwrite 0 w v = v :=
  Words8.ext_get fun _ hk => (Words8.get_ofFn _ hk).trans (if_neg (Nat.not_lt_zero _))

theorem overwrite_eight (w v : Words8) : overwrite 8 w v = w :=
  Words8.ext_get fun _ hk => (Words8.get_ofFn _ hk).trans (if_pos hk)

theorem overwrite_succ (n : Nat) (w v : Words8) : (overwrite n w v).set n (w.get n) = overwrite (n + 1) w v := by
  refine Words8.ext_get fun k hk => ?_
  rw [Words8.get_set _ _ _ hk, overwrite, overwrite, Words8.get_ofFn _ hk, Words8.get_ofFn _ hk]
  rcases Nat.lt_trichotomy k n with h | rfl | h
  · rw [if_neg (by omega), if_pos h, if_pos (by omega)]
  · rw [if_pos rfl, if_pos (by omega)]
  · rw [if_neg (by omega), if_neg (by omega), if_neg (by omega)]

/-- A load passes through the states `put 0, …, put 8` if each write takes one to the next. -/
theorem loadBuffer_eq {base : Nat} {b : List Byte} {put : Nat → State}
    (hbusy : ∀ k, (put k).busy = false)
    (h : ∀ k, k < 8 → writeReg (put k) ((packBlock b).get k) (regAt (base + 4 * k)) = put (k + 1)) :
    loadBuffer base b (put 0) = put 8 := by
  have hwritten (n : Nat) (hn : n ≤ 8) :
      (List.range n).foldl (fun s k => s.hostWrite (base + 4 * k) ((packBlock b).get k)) (put 0) = put n := by
    induction n with
    | zero => rfl
    | succ n ih => rw [List.range_succ, List.foldl_append, ih (by omega), List.foldl_cons, List.foldl_nil,
        State.hostWrite_of_not_busy (hbusy n), h n hn]
  exact hwritten 8 (Nat.le_refl 8)

/-- `lddin` (20_memory.md R68). -/
theorem loadBuffer_din {s : State} (hbusy : s.busy = false) (b : List Byte) :
    loadBuffer dinOffset b s = { s with din := packBlock b } := by
  have h := loadBuffer_eq (base := dinOffset) (b := b)
    (put := fun n => { s with din := overwrite n (packBlock b) s.din }) (fun _ => hbusy) fun k hk => by
      rw [dinOffset, regAt_din hk, writeReg, overwrite_succ]
  rwa [overwrite_zero, overwrite_eight] at h

/-- `ldtagin` (20_memory.md R71). -/
theorem loadBuffer_tagin {s : State} (hbusy : s.busy = false) (b : List Byte) :
    loadBuffer taginOffset b s = { s with tagin := packBlock b } := by
  have h := loadBuffer_eq (base := taginOffset) (b := b)
    (put := fun n => { s with tagin := overwrite n (packBlock b) s.tagin }) (fun _ => hbusy) fun k hk => by
      rw [taginOffset, regAt_tagin hk, writeReg, overwrite_succ]
  rwa [overwrite_zero, overwrite_eight] at h

/-- The written flags after the first `n` words. -/
def maskAfter (n : Nat) (m : BitVec 8) : BitVec 8 := (List.range n).foldl (fun m k => m ||| (1 <<< k)) m

theorem maskAfter_succ (n : Nat) (m : BitVec 8) : maskAfter (n + 1) m = maskAfter n m ||| (1 <<< n) := by
  rw [maskAfter, List.range_succ, List.foldl_append]
  rfl

theorem maskAfter_eight : ∀ m : BitVec 8, maskAfter 8 m = 0xFF := by decide

/-- `ldkey` in IDLE (20_memory.md R67). -/
theorem loadBuffer_key {s : State} (hbusy : s.busy = false) (hidle : s.phase = .idle) (b : List Byte) :
    loadBuffer keyOffset b s = { s with key := packBlock b, keyMask := 0xFF } := by
  have h := loadBuffer_eq (base := keyOffset) (b := b)
    (put := fun n => { s with key := overwrite n (packBlock b) s.key, keyMask := maskAfter n s.keyMask })
    (fun _ => hbusy) fun k hk => by
      rw [keyOffset, regAt_key hk, writeReg, if_pos hidle, overwrite_succ, maskAfter_succ, setMaskBit]
  rwa [overwrite_zero, overwrite_eight, maskAfter_eight] at h

/-- `ldnonce` in IDLE (20_memory.md R67). -/
theorem loadBuffer_nonce {s : State} (hbusy : s.busy = false) (hidle : s.phase = .idle) (b : List Byte) :
    loadBuffer nonceOffset b s = { s with nonce := packBlock b, nonceMask := 0xFF } := by
  have h := loadBuffer_eq (base := nonceOffset) (b := b)
    (put := fun n => { s with nonce := overwrite n (packBlock b) s.nonce, nonceMask := maskAfter n s.nonceMask })
    (fun _ => hbusy) fun k hk => by
      rw [nonceOffset, regAt_nonce hk, writeReg, if_pos hidle, overwrite_succ, maskAfter_succ, setMaskBit]
  rwa [overwrite_zero, overwrite_eight, maskAfter_eight] at h

/-! ### Reading a buffer and giving a command -/

theorem readValue_of_not_busy {s : State} (hbusy : s.busy = false) (r : Reg) : readValue s r = readReg s r := by
  simp [readValue, readIsFree, hbusy]

/-- `rdblock` (20_memory.md R69). -/
theorem readBuffer_dout {s : State} (hbusy : s.busy = false) : readBuffer doutOffset s = s.dout := by
  refine Words8.ext_get fun k hk => ?_
  rw [readBuffer, Words8.get_ofFn _ hk, readValue_of_not_busy hbusy, doutOffset, regAt_dout hk, readReg]

/-- `rdtag` in DONE of an encrypt session (20_memory.md R70). -/
theorem readBuffer_tag {s : State} (hbusy : s.busy = false) (hphase : s.phase = .done) (hdir : s.dir = .encrypt) :
    readBuffer tagOffset s = capacityWords s.perm := by
  refine Words8.ext_get fun k hk => ?_
  rw [readBuffer, Words8.get_ofFn _ hk, readValue_of_not_busy hbusy, tagOffset, regAt_tag hk, readReg,
    if_pos ((tagVisible_iff s).mpr ⟨hphase, hdir⟩), get_capacityWords _ hk]

/-- `do C` of an idle core leaves what `exec` answers. -/
theorem doCommand_eq {i : Instr} {s t : State} (hwf : i.wellFormed = true) (hbusy : s.busy = false)
    (ht : exec i s = .next t) : doCommand i s = t := by
  have hwrite : { s.hostWrite cmdOffset (encode i) with latLeft := 0 } = s.withPending (encode i) := by
    rw [State.hostWrite_of_not_busy hbusy]
    rfl
  obtain ⟨-, -, -, -, hqueue, hreads⟩ := exec_bookkeeping ht
  have hstep : step (s.withPending (encode i)) = .next t := by
    rw [stepRunsPendingCommand _ i rfl rfl (decodeWord_encode hwf),
      exec_of_same_payload (s' := s.withPending (encode i)) ht rfl rfl rfl, State.withPending_hostQueue,
      State.withPending_reads, ← hqueue, ← hreads]
  rw [doCommand, hwrite, hstep]

/-- `do C` of a command that reports no error leaves its effect. -/
theorem doCommand_of_ok {i : Instr} {s : State} (hwf : i.wellFormed = true) (hbusy : s.busy = false)
    (hok : commandError s i = .ok) : doCommand i s = commandEffect i s :=
  doCommand_eq hwf hbusy (exec_of_ok hok)

/-! ### A call's session -/

/-- What a call keeps track of in a session between two commands: its direction, key and build parameter, the
permutation state, the phase, and that no command runs. -/
structure CallState (d : Dir) (key : Words8) (skip : Bool) (p : SparkleState) (q : Phase) (s : State) : Prop where
  dir : s.dir = d
  key : s.key = key
  skip : s.skipEmptyData = skip
  perm : s.perm = p
  phase : s.phase = q
  busy : s.busy = false

section Session
variable {d : Dir} {key : Words8} {skip : Bool} {p : SparkleState} {q : Phase} {s : State}

/-- `lddin` is no change of what a call keeps track of. -/
theorem CallState.load_din (h : CallState d key skip p q s) (b : List Byte) :
    CallState d key skip p q (loadBuffer dinOffset b s) ∧ (loadBuffer dinOffset b s).din = packBlock b := by
  rw [loadBuffer_din h.busy]
  exact ⟨⟨h.dir, h.key, h.skip, h.perm, h.phase, h.busy⟩, rfl⟩

/-- A length up to 32 is a LEN field (30_encoding.md R95). -/
theorem toNat_lenField {len : Nat} (h : len ≤ 32) : (BitVec.ofNat 6 len).toNat = len :=
  BitVec.toNat_ofNat len 6 ▸ Nat.mod_eq_of_lt (by omega)

/-! ### The AAD phase -/

/-- One full AAD block. -/
theorem CallState.aadBlock (h : CallState d key skip p q s) (hq : q = .aadStart ∨ q = .aadMid) (b : List Byte) :
    CallState d key skip (aadBlockState (packBlock b) p) .aadMid
      (doCommand .aadBlock (loadBuffer dinOffset b s)) := by
  obtain ⟨hload, hdin⟩ := h.load_din b
  generalize loadBuffer dinOffset b s = u at hload hdin
  have hok : commandError u .aadBlock = .ok := commandError_aadBlock_eq_ok.mpr (by rwa [hload.phase])
  rw [doCommand_of_ok rfl hload.busy hok, ← hdin, ← hload.perm]
  exact ⟨hload.dir, hload.key, hload.skip, rfl, rfl, rfl⟩

/-- The last AAD block. -/
theorem CallState.aadFinal (h : CallState d key skip p q s) (hq : q = .aadStart ∨ q = .aadMid) {b : List Byte}
    (hle : b.length ≤ 32) (hpos : 1 ≤ b.length) :
    CallState d key skip (aadFinalState (packBlock b) b.length p) .dataStart
      (doCommand (.aadFinal (BitVec.ofNat 6 b.length)) (loadBuffer dinOffset b s)) := by
  obtain ⟨hload, hdin⟩ := h.load_din b
  generalize loadBuffer dinOffset b s = u at hload hdin
  have hlen := toNat_lenField hle
  have hok : commandError u (.aadFinal (BitVec.ofNat 6 b.length)) = .ok :=
    commandError_aadFinal_eq_ok.mpr ⟨by rwa [hload.phase], by rwa [hlen], by rwa [hlen]⟩
  rw [doCommand_of_ok rfl hload.busy hok, ← hdin, ← hload.perm, commandEffect, hlen]
  exact ⟨hload.dir, hload.key, hload.skip, rfl, rfl, rfl⟩

theorem aadPhase_cons {b : List Byte} {bs : List (List Byte)} (hbs : bs ≠ []) (p : SparkleState) :
    aadPhase (b :: bs) p = aadPhase bs (aadBlockState (packBlock b) p) := by
  cases bs with
  | nil => exact absurd rfl hbs
  | cons c cs => rfl

/-- A block that is not the last one is given as a full block. -/
theorem runPhase_cons (block : Instr) (final : BitVec 6 → Instr) {b : List Byte} {bs : List (List Byte)}
    (hbs : bs ≠ []) (s : State) :
    runPhase block final (b :: bs) s =
      (takeBytes (readBuffer doutOffset (doCommand block (loadBuffer dinOffset b s))) 32 ++
          (runPhase block final bs (doCommand block (loadBuffer dinOffset b s))).1,
        (runPhase block final bs (doCommand block (loadBuffer dinOffset b s))).2) := by
  cases bs with
  | nil => exact absurd rfl hbs
  | cons c cs => rfl

/-- The commands for an AAD that is not empty leave the state of the AAD phase. -/
theorem CallState.runPhase_aad {front : List (List Byte)} {last : List Byte} (hle : last.length ≤ 32)
    (hpos : 1 ≤ last.length) (h : CallState d key skip p q s) (hq : q = .aadStart ∨ q = .aadMid) :
    CallState d key skip (aadPhase (front ++ [last]) p) .dataStart
      (runPhase .aadBlock .aadFinal (front ++ [last]) s).2 := by
  induction front generalizing p q s with
  | nil => exact h.aadFinal hq hle hpos
  | cons b front ih =>
    rw [List.cons_append, aadPhase_cons (by simp), runPhase_cons _ _ (by simp)]
    exact ih (h.aadBlock hq b) (.inr rfl)

/-! ### The data phase -/

/-- The state after a full data block of each direction (41_sponge.md R186, R188). -/
def dataBlockState : Dir → Words8 → SparkleState → SparkleState
  | .encrypt => encBlockState
  | .decrypt => decBlockState

/-- The state after the last data block of each direction (41_sponge.md R187, R189). -/
def dataFinalState : Dir → Words8 → Nat → SparkleState → SparkleState
  | .encrypt => encFinalState
  | .decrypt => decFinalState

/-- The data phase of each direction (41_sponge.md R196, R197). -/
def dataPhase : Dir → List (List Byte) → SparkleState → List Byte × SparkleState
  | .encrypt => encPhase
  | .decrypt => decPhase

theorem dataPhase_nil (d : Dir) (p : SparkleState) : dataPhase d [] p = ([], p) := by
  cases d <;> rfl

theorem dataPhase_singleton (d : Dir) (b : List Byte) (p : SparkleState) :
    dataPhase d [b] p =
      (takeBytes (rhoOutput (packBlock b) b.length p) b.length, dataFinalState d (packBlock b) b.length p) := by
  cases d <;> rfl

theorem dataPhase_cons (d : Dir) {b : List Byte} {bs : List (List Byte)} (hbs : bs ≠ []) (p : SparkleState) :
    dataPhase d (b :: bs) p =
      (takeBytes (rhoOutput (packBlock b) 32 p) 32 ++ (dataPhase d bs (dataBlockState d (packBlock b) p)).1,
        (dataPhase d bs (dataBlockState d (packBlock b) p)).2) := by
  cases d with
  | encrypt => exact encPhase_cons hbs p
  | decrypt => exact decPhase_cons hbs p

theorem commandEffect_blockCommand_eq (d : Dir) (s : State) :
    commandEffect (blockCommand d) s =
      ((s.clearAuth.advance (dataBlockState d s.din s.perm) .dataMid).setDout
        (rhoOutput s.din blockBytes s.perm)).succeed := by
  cases d <;> rfl

theorem commandEffect_finalCommand_eq (d : Dir) (len : BitVec 6) (s : State) :
    commandEffect (finalCommand d len) s =
      ((s.clearAuth.advance (dataFinalState d s.din len.toNat s.perm) .finalReady).setDout
        (rhoOutput s.din len.toNat s.perm)).succeed := by
  rw [← rhoOutput_addDomain s.din len.toNat (dataConstant len.toNat) s.perm]
  cases d <;> rfl

theorem blockCommand_wellFormed (d : Dir) : (blockCommand d).wellFormed = true := by
  cases d <;> rfl

theorem finalCommand_wellFormed (d : Dir) (len : BitVec 6) : (finalCommand d len).wellFormed = true := by
  cases d <;> rfl

/-- The phases in which a call gives data commands (42_control.md R231). -/
def DataOpen (q : Phase) : Prop := q = .aadStart ∨ q = .dataStart ∨ q = .dataMid

/-- One full data block, and what the host reads of it. -/
theorem CallState.dataBlock (h : CallState d key skip p q s) (hq : DataOpen q) (b : List Byte) :
    CallState d key skip (dataBlockState d (packBlock b) p) .dataMid
        (doCommand (blockCommand d) (loadBuffer dinOffset b s)) ∧
      readBuffer doutOffset (doCommand (blockCommand d) (loadBuffer dinOffset b s)) =
        rhoOutput (packBlock b) 32 p := by
  obtain ⟨hload, hdin⟩ := h.load_din b
  generalize loadBuffer dinOffset b s = u at hload hdin
  have hok : commandError u (blockCommand d) = .ok :=
    commandError_blockCommand_eq_ok.mpr ⟨hload.dir, by rwa [hload.phase]⟩
  rw [doCommand_of_ok (blockCommand_wellFormed d) hload.busy hok, commandEffect_blockCommand_eq, ← hdin, ← hload.perm]
  exact ⟨⟨hload.dir, hload.key, hload.skip, rfl, rfl, rfl⟩, readBuffer_dout rfl⟩

/-- The last data block, and what the host reads of it. -/
theorem CallState.dataFinal (h : CallState d key skip p q s) (hq : DataOpen q) {b : List Byte}
    (hle : b.length ≤ 32) (hleast : 1 ≤ b.length ∨ (q ≠ .dataMid ∧ skip = false)) :
    CallState d key skip (dataFinalState d (packBlock b) b.length p) .finalReady
        (doCommand (finalCommand d (BitVec.ofNat 6 b.length)) (loadBuffer dinOffset b s)) ∧
      readBuffer doutOffset (doCommand (finalCommand d (BitVec.ofNat 6 b.length)) (loadBuffer dinOffset b s)) =
        rhoOutput (packBlock b) b.length p := by
  obtain ⟨hload, hdin⟩ := h.load_din b
  generalize loadBuffer dinOffset b s = u at hload hdin
  have hlen := toNat_lenField hle
  have hok : commandError u (finalCommand d (BitVec.ofNat 6 b.length)) = .ok :=
    commandError_finalCommand_eq_ok.mpr
      ⟨⟨hload.dir, by rwa [hload.phase]⟩, by rwa [hlen], by rwa [hlen, hload.phase, hload.skip]⟩
  rw [doCommand_of_ok (finalCommand_wellFormed d _) hload.busy hok, commandEffect_finalCommand_eq, hlen, ← hdin,
    ← hload.perm]
  exact ⟨⟨hload.dir, hload.key, hload.skip, rfl, rfl, rfl⟩, readBuffer_dout rfl⟩

/-- The commands for a message with blocks give the host the output of the data phase, and leave its state. -/
theorem CallState.runPhase_data {front : List (List Byte)} {last : List Byte} (hle : last.length ≤ 32)
    (h : CallState d key skip p q s) (hq : DataOpen q)
    (hleast : 1 ≤ last.length ∨ (front = [] ∧ q ≠ .dataMid ∧ skip = false)) :
    (runPhase (blockCommand d) (finalCommand d) (front ++ [last]) s).1 = (dataPhase d (front ++ [last]) p).1 ∧
      CallState d key skip (dataPhase d (front ++ [last]) p).2 .finalReady
        (runPhase (blockCommand d) (finalCommand d) (front ++ [last]) s).2 := by
  induction front generalizing p q s with
  | nil =>
    obtain ⟨hfinal, hread⟩ := h.dataFinal hq hle (hleast.imp_right And.right)
    rw [List.nil_append, dataPhase_singleton]
    exact ⟨congrArg (takeBytes · last.length) hread, hfinal⟩
  | cons b front ih =>
    obtain ⟨hblock, hread⟩ := h.dataBlock hq b
    obtain ⟨hout, hrest⟩ := ih hblock (.inr (.inr rfl)) (hleast.imp_right fun hempty => nomatch hempty.1)
    rw [List.cons_append, dataPhase_cons d (by simp), runPhase_cons _ _ (by simp), hread, hout]
    exact ⟨rfl, hrest⟩

end Session

/-! ### The parts of a call (30_encoding.md R104) -/

/-- A call begins in IDLE with no command running, whatever else the state holds. -/
theorem callState_runStart {s : State} (hidle : s.phase = .idle) (hbusy : s.busy = false) (d : Dir)
    (k n a : List Byte) :
    ∃ q, (q = .aadStart ∨ q = .dataStart) ∧
      CallState d (packBlock k) s.skipEmptyData (startPhase k n a) q (runStart d k n a s) := by
  have hload : loadBuffer nonceOffset n (loadBuffer keyOffset k s) =
      { s with key := packBlock k, keyMask := 0xFF, nonce := packBlock n, nonceMask := 0xFF } := by
    rw [loadBuffer_key hbusy hidle]
    exact loadBuffer_nonce (s := { s with key := packBlock k, keyMask := 0xFF }) hbusy hidle n
  have hinit : CallState d (packBlock k) s.skipEmptyData (initState (packBlock k) (packBlock n)) .aadStart
      (doCommand (.init d) (loadBuffer nonceOffset n (loadBuffer keyOffset k s))) := by
    have hok : commandError (loadBuffer nonceOffset n (loadBuffer keyOffset k s)) (.init d) = .ok := by
      rw [hload]
      exact (commandError_init_eq_ok d).mpr ⟨hidle, rfl, rfl⟩
    rw [doCommand_of_ok rfl (by rw [hload]; exact hbusy) hok, hload]
    exact ⟨rfl, rfl, rfl, rfl, rfl, rfl⟩
  rw [runStart, startPhase]
  rcases aadChunks_cases a with hnil | ⟨front, last, hchunks, -, hle, hpos⟩
  · rw [hnil]
    exact ⟨.aadStart, .inl rfl, hinit⟩
  · rw [hchunks]
    exact ⟨.dataStart, .inr rfl, hinit.runPhase_aad hle hpos (.inl rfl)⟩

/-- FINALIZE, after the data phase or, with SKIP_EMPTY_DATA, without one. -/
theorem CallState.finalize {d : Dir} {key : Words8} {skip : Bool} {p : SparkleState} {q : Phase} {s : State}
    (h : CallState d key skip p q s)
    (hq : q = .finalReady ∨ (skip = true ∧ (q = .aadStart ∨ q = .dataStart))) :
    CallState d key skip (finalizeState key p) .done (doCommand .finalize s) := by
  have hok : commandError s .finalize = .ok := commandError_finalize_eq_ok.mpr (by rwa [h.phase, h.skip])
  rw [doCommand_of_ok rfl h.busy hok, ← h.key, ← h.perm]
  exact ⟨h.dir, rfl, h.skip, rfl, rfl, rfl⟩

/-- A call of either direction up to FINALIZE: the host has read the output of the data phase, and the capacity holds
the tag of its state. -/
theorem callState_run_to_done {s : State} (hidle : s.phase = .idle) (hbusy : s.busy = false) (d : Dir)
    (k n a m : List Byte) :
    let r := runPhase (blockCommand d) (finalCommand d) (dataChunks s.skipEmptyData m) (runStart d k n a s)
    let f := dataPhase d (dataChunks s.skipEmptyData m) (startPhase k n a)
    r.1 = f.1 ∧
      CallState d (packBlock k) s.skipEmptyData (finalizeState (packBlock k) f.2) .done (doCommand .finalize r.2) := by
  obtain ⟨q, hq, hstart⟩ := callState_runStart hidle hbusy d k n a
  rcases dataChunks_cases s.skipEmptyData m with ⟨hskip, hnil⟩ | ⟨front, last, hchunks, -, hle, hleast⟩
  · rw [hnil, dataPhase_nil]
    exact ⟨rfl, hstart.finalize (.inr ⟨hskip, hq⟩)⟩
  · have hopen : DataOpen q := hq.imp_right .inl
    have hmid : q ≠ .dataMid := by rcases hq with rfl | rfl <;> decide
    obtain ⟨hout, hfinal⟩ := hstart.runPhase_data hle hopen (hleast.imp_right fun ⟨hf, hs⟩ => ⟨hf, hmid, hs⟩)
    rw [hchunks]
    exact ⟨hout, hfinal.finalize (.inl rfl)⟩

/-! ### The two calls -/

/-- Settles O56: up to FINALIZE the call follows the function (`callState_run_to_done`), TAG then shows the capacity,
and CLEAR zeroizes. -/
theorem encryptCommandsComputeEncrypt : Obligations.EncryptCommandsComputeEncrypt := by
  intro s k n a p hidle hbusy
  obtain ⟨hout, hdone⟩ := callState_run_to_done hidle hbusy .encrypt k n a p
  have htag := readBuffer_tag hdone.busy hdone.phase hdone.dir
  have hclear := doCommand_of_ok (i := .clear) rfl hdone.busy rfl
  rw [hdone.perm] at htag
  generalize hr : runPhase (blockCommand .encrypt) (finalCommand .encrypt) (dataChunks s.skipEmptyData p)
    (runStart .encrypt k n a s) = r at hout htag hclear
  have hrun : runEncrypt k n a p s =
      (r.1, takeBytes (readBuffer tagOffset (doCommand .finalize r.2)) 32,
        doCommand .clear (doCommand .finalize r.2)) := by
    rw [← hr]
    rfl
  obtain ⟨-, hlength, -⟩ := roundTrip s.skipEmptyData k n a p
  rw [hrun, hout, htag, hclear]
  exact ⟨_, rfl, hlength, (doCommand .finalize r.2).clearAuth.zeroize_zeroized, rfl, rfl⟩

/-- VERIFY ends a call zeroized, and AUTH_OK reports whether the tags agree. -/
theorem CallState.verify {key : Words8} {skip : Bool} {p : SparkleState} {s : State}
    (h : CallState .decrypt key skip p .done s) (t : List Byte) :
    (doCommand .verify (loadBuffer taginOffset t s)).zeroized ∧
      (doCommand .verify (loadBuffer taginOffset t s)).busy = false ∧
      ((doCommand .verify (loadBuffer taginOffset t s)).authOk = true ↔ capacityWords p = packBlock t) := by
  obtain ⟨u, hexec, hzero, hidle, -, -, -, -, -, -⟩ := verifyComparesTag { s with tagin := packBlock t } h.phase h.dir
  obtain ⟨-, hauth⟩ := exec_report hexec
  rw [loadBuffer_tagin h.busy, doCommand_eq (s := { s with tagin := packBlock t }) rfl h.busy hexec, hauth, ← h.perm]
  exact ⟨hzero, hidle, fun ⟨_, _, _, htag⟩ => htag, fun htag => ⟨rfl, h.phase, h.dir, htag⟩⟩

/-- Settles O57: up to FINALIZE the call follows the function (`callState_run_to_done`), and VERIFY reports AUTH_OK
exactly if the tags agree, zeroized in both outcomes. -/
theorem decryptCommandsComputeDecrypt : Obligations.DecryptCommandsComputeDecrypt := by
  intro s k n a c t hidle hbusy
  obtain ⟨hout, hdone⟩ := callState_run_to_done hidle hbusy .decrypt k n a c
  obtain ⟨hzero, hidle', hauth⟩ := hdone.verify t
  refine ⟨?_, hzero, hidle'⟩
  rw [← tagDifference_eq_zero_iff] at hauth
  have hresult : decryptResult (runDecrypt k n a c t s) =
      if (runDecrypt k n a c t s).2.authOk = true then some (runDecrypt k n a c t s).1 else none := rfl
  rw [hresult, aeadDecrypt]
  exact if_congr hauth (congrArg some hout) rfl

end Sys2Proof.Machine
end
